-- ==== Sys2Proof/Word.lean ====
section
/-! DEFINITION. The word of mtBreak-CORE (00_scope.md R10): an unsigned 32-bit integer, bit 0 least
significant, with wrapping addition and multiplication, logical right shift and truncating left shift.
All of these are `BitVec 32`'s own operations. -/

namespace Sys2Proof

/-- A *word*: an unsigned 32-bit integer (R10). -/
abbrev Word := BitVec 32

/-- A 624-word vector, the shape of a state vector (R21) and of the recovery buffer (R24). -/
abbrev WordVec := Vector Word 624

/-- An integer in 0 .. 624, the range of a cursor (R22) and of the buffer count (R24). -/
abbrev Count := Fin 625

end Sys2Proof
end

