-- ==== Sys2Proof/Config.lean ====
section
/-! DEFINITION. What a block fixes (00_scope.md R6 to R9), and the free values: the numbers the spec leaves open,
each an uninterpreted constant of which nothing can be proved. -/

namespace Sys2Proof

/-- One (shift, mask) pair of the tempering transform (R6, R80). -/
structure ShiftMask where
  shift : Nat
  mask  : Word
  deriving DecidableEq, Repr

/-- The configuration record of R6 and R7, with the window's base address of R9 and R41. No command changes it.
`N = 624`, `M = 397` and the seeding shift 30 come from the source and stand as numerals in the rules that use them. -/
structure Config where
  /-- F, the seed multiplier. -/
  seedMult  : Word
  /-- A, the twist mixing constant. -/
  twistMix  : Word
  /-- UPPER_MASK, the bits taken from word i in the twist. -/
  upperMask : Word
  /-- LOWER_MASK, the bits taken from word i+1 in the twist. -/
  lowerMask : Word
  /-- (U, D), tempering step 1, a right shift. -/
  step1     : ShiftMask
  /-- (S, B), tempering step 2, a left shift. -/
  step2     : ShiftMask
  /-- (T, C), tempering step 3, a left shift. -/
  step3     : ShiftMask
  /-- (L, E), tempering step 4, a right shift. -/
  step4     : ShiftMask
  /-- MTB_BASE, the byte address of the register window (R41). -/
  base      : Nat
  deriving DecidableEq, Repr

/-- A tempering shift that R7 admits. -/
abbrev ShiftMask.Valid (p : ShiftMask) : Prop := 1 ≤ p.shift ∧ p.shift ≤ 31

/-- What R7 demands of every configuration: complementary masks, the upper one made of exactly the top `W - R`
bits for some `1 ≤ R ≤ 31`, and every tempering shift in 1 .. 31. -/
abbrev Config.Valid (c : Config) : Prop :=
  c.upperMask = ~~~c.lowerMask ∧
  (∃ r ∈ List.range 32, 1 ≤ r ∧ c.upperMask = BitVec.allOnes 32 <<< r) ∧
  c.step1.Valid ∧ c.step2.Valid ∧ c.step3.Valid ∧ c.step4.Valid

/-- MTB_BASE of the block that `State.reset` describes: OPEN (R9, D20), so an uninterpreted number. -/
opaque Config.openBase : Nat

/-- The standard MT19937 values of R6's table, at an open base address. -/
def Config.standard : Config where
  seedMult  := 1812433253#32
  twistMix  := 0x9908B0DF#32
  upperMask := 0x80000000#32
  lowerMask := 0x7FFFFFFF#32
  step1     := { shift := 11, mask := 0xFFFFFFFF#32 }
  step2     := { shift := 7,  mask := 0x9D2C5680#32 }
  step3     := { shift := 15, mask := 0xEFC60000#32 }
  step4     := { shift := 18, mask := 0xFFFFFFFF#32 }
  base      := Config.openBase

/-- NUM_ENGINES of the block that `State.reset` describes: the default of R8. -/
def Config.numEngines : Nat := 2

/-- What a RESULT read returns while BUSY = 1: "any value" (R186, D26), a fresh draw for each read. -/
opaque Config.freeResult : Nat → Word

/-- How many host accesses arrive while an accepted command executes (R185, R191: latency is open and finite), a
fresh draw for each command. DESIGN CHOICE (log entry 5): the draw depends on the count of draws alone, not on the
command or the state, so the model hides what R192 leaves open, whether a twist can be told by its latency. -/
opaque Config.accessesWhileBusy : Nat → Nat

/-- The content of word `i` of engine `e`'s state vector where the spec gives it "no value" (R31, D27). -/
opaque Config.noValueWord : Nat → Nat → Word

/-- The content of engine `e`'s cursor where the spec gives it "no value" (R31, D27). -/
opaque Config.noValueCursor : Nat → Count

/-- The content of word `j` of the recovery buffer where the spec gives it "no value" (R31, D27). -/
opaque Config.noValueBuf : Nat → Word

/-- The cause of the first fault since reset, the values of STATUS.CAUSE (60_exceptions.md R151). The codes 6 .. 15
are never raised (I12), so they have no constructor. -/
inductive Cause where
  /-- 0: no fault since reset. -/
  | none
  /-- 1: the CMD word decodes to no command (R152). -/
  | illegalCmd
  /-- 2: an engine field is not below NUM_ENGINES (R153). -/
  | badEngine
  /-- 3: NEXT on, or RECOVER from, an UNINIT engine (R154). -/
  | uninit
  /-- 4: the source's state-length mismatch (R155). -/
  | lenMismatch
  /-- 5: CMD written while BUSY = 1 (R156). -/
  | overrun
  deriving DecidableEq, Repr

end Sys2Proof
end

