-- ==== Sys2Proof/Syntax.lean ====
section
/-! DEFINITION. The nine commands of the opcode map (30_encoding.md R62), one constructor per row of
spec/opcode_table.json. The DATA operand is not part of a command word, so it is no field here: a command reads it
from the state (R60, R44). -/

namespace Sys2Proof

/-- A decoded command. Engine fields are the 4-bit fields EA and EB of the CMD word (R61), unsigned indices 0 .. 15. -/
inductive Instr where
  /-- SEED e: seed engine `e` with DATA and run its first twist (R104). -/
  | seed (e : BitVec 4)
  /-- NEXT e: one tempered output of engine `e` (R105). -/
  | next (e : BitVec 4)
  /-- BUF_CLEAR: empty the recovery buffer (R130). -/
  | bufClear
  /-- PUSH_RAW: append DATA to the buffer (R131). -/
  | pushRaw
  /-- PUSH_OUT: append the untempered DATA to the buffer (R132). -/
  | pushOut
  /-- INJECT e: move a full buffer into engine `e` (R106). -/
  | inject (e : BitVec 4)
  /-- RECOVER d, s: clone engine `s` into engine `d` (R133). -/
  | recover (d s : BitVec 4)
  /-- TEMPER: RESULT becomes the tempered DATA (R88). -/
  | temper
  /-- UNTEMPER: RESULT becomes the untempered DATA (R89). -/
  | untemper
  deriving DecidableEq, Repr

end Sys2Proof
end

