-- ==== Sys2Proof/WellFormed.lean ====
section
/-! DEFINITION. Which commands a block with `n` engines admits (30_encoding.md R63): every engine field a command
uses is below NUM_ENGINES. -/

namespace Sys2Proof

/-- The engines a command names: destination first (R61, R63). -/
def Instr.engines : Instr → List (BitVec 4)
  | .seed e      => [e]
  | .next e      => [e]
  | .bufClear    => []
  | .pushRaw     => []
  | .pushOut     => []
  | .inject e    => [e]
  | .recover d s => [d, s]
  | .temper      => []
  | .untemper    => []

/-- A field marked "engine", "destination" or "source" is less than NUM_ENGINES (R63). -/
def Instr.wellFormed (n : Nat) (i : Instr) : Bool :=
  i.engines.all fun e => e.toNat < n

end Sys2Proof
end

