-- ==== Sys2Proof/Decode.lean ====
section
/-! DEFINITION. The CMD word's fields (30_encoding.md R61), the decoder (R65), the encoder (R68, R69) and the table of
encodings (R68). -/

namespace Sys2Proof

/-- OP, bits 7:0 (R61). -/
def opField (cmd : Word) : BitVec 8 := cmd.extractLsb' 0 8

/-- EA, bits 11:8 (R61). -/
def eaField (cmd : Word) : BitVec 4 := cmd.extractLsb' 8 4

/-- EB, bits 15:12 (R61). -/
def ebField (cmd : Word) : BitVec 4 := cmd.extractLsb' 12 4

/-- RSV, bits 31:16 (R61, R64). -/
def rsvField (cmd : Word) : BitVec 16 := cmd.extractLsb' 16 16

/-- The opcode map (R62): the command of an operation code with its engines, none where the code is reserved (R66). -/
def commandOf (op : BitVec 8) (ea eb : BitVec 4) : Option Instr :=
  match op.toNat with
  | 0x01 => some (.seed ea)
  | 0x02 => some (.next ea)
  | 0x03 => some .bufClear
  | 0x04 => some .pushRaw
  | 0x05 => some .pushOut
  | 0x06 => some (.inject ea)
  | 0x07 => some (.recover ea eb)
  | 0x08 => some .temper
  | 0x09 => some .untemper
  | _    => none

/-- Operations that use neither engine field (R65, third check). -/
def usesNoEngine (op : BitVec 8) : Bool :=
  op == 0x03 || op == 0x04 || op == 0x05 || op == 0x08 || op == 0x09

/-- Operations that use EA and not EB (R65, fourth check). -/
def usesOneEngine (op : BitVec 8) : Bool :=
  op == 0x01 || op == 0x02 || op == 0x06

/-- The command of a CMD word with its reserved and unused fields checked, before any engine number is (R65, the
ILLEGAL_CMD checks in their order): none is ILLEGAL_CMD. -/
def decodeFields (cmd : Word) : Option Instr :=
  let op := opField cmd
  let ea := eaField cmd
  let eb := ebField cmd
  if rsvField cmd ≠ 0 then none
  else match commandOf op ea eb with
    | none => none
    | some i =>
      if usesNoEngine op && (ea != 0 || eb != 0) then none
      else if usesOneEngine op && eb != 0 then none
      else some i

/-- Decoding (R65), total over all CMD words, for a block of `n` engines. Every ILLEGAL_CMD check comes before every
BAD_ENGINE check (R157). -/
def decode (n : Nat) (cmd : Word) : Except Cause Instr :=
  match decodeFields cmd with
  | none   => .error .illegalCmd
  | some i => if i.wellFormed n then .ok i else .error .badEngine

/-- EA in its place, bits 11:8 (R61). -/
def placeEA (e : BitVec 4) : Word := e.setWidth 32 <<< 8

/-- EB in its place, bits 15:12 (R61). -/
def placeEB (e : BitVec 4) : Word := e.setWidth 32 <<< 12

/-- The CMD word of a command (R68, and the assembler's column of R69). -/
def encode : Instr → Word
  | .seed e      => 0x00000001#32 ||| placeEA e
  | .next e      => 0x00000002#32 ||| placeEA e
  | .bufClear    => 0x00000003#32
  | .pushRaw     => 0x00000004#32
  | .pushOut     => 0x00000005#32
  | .inject e    => 0x00000006#32 ||| placeEA e
  | .recover d s => 0x00000007#32 ||| placeEA d ||| placeEB s
  | .temper      => 0x00000008#32
  | .untemper    => 0x00000009#32

/-- One row of R68's table of encodings: a CMD word matches it when its bits under `mask` are `pattern`. -/
structure OpcodeRow where
  mnemonic : String
  pattern  : Word
  mask     : Word
  deriving DecidableEq, Repr

/-- The table of R68, in its order. -/
def opcodeRows : List OpcodeRow :=
  [ { mnemonic := "SEED",      pattern := 0x00000001#32, mask := 0xFFFFF0FF#32 },
    { mnemonic := "NEXT",      pattern := 0x00000002#32, mask := 0xFFFFF0FF#32 },
    { mnemonic := "BUF_CLEAR", pattern := 0x00000003#32, mask := 0xFFFFFFFF#32 },
    { mnemonic := "PUSH_RAW",  pattern := 0x00000004#32, mask := 0xFFFFFFFF#32 },
    { mnemonic := "PUSH_OUT",  pattern := 0x00000005#32, mask := 0xFFFFFFFF#32 },
    { mnemonic := "INJECT",    pattern := 0x00000006#32, mask := 0xFFFFF0FF#32 },
    { mnemonic := "RECOVER",   pattern := 0x00000007#32, mask := 0xFFFF00FF#32 },
    { mnemonic := "TEMPER",    pattern := 0x00000008#32, mask := 0xFFFFFFFF#32 },
    { mnemonic := "UNTEMPER",  pattern := 0x00000009#32, mask := 0xFFFFFFFF#32 } ]

/-- A CMD word matches a row of the table (R68). -/
def OpcodeRow.admits (r : OpcodeRow) (cmd : Word) : Bool := cmd &&& r.mask == r.pattern

/-- The decoder as the host's checks call it: the one CMD word of a table row is its bits 31 .. 0, and the block has
the default number of engines. -/
def decodeTableWord (nbits w : Nat) : Option Instr :=
  match decode Config.numEngines (BitVec.ofNat 32 (w % 2 ^ nbits)) with
  | .ok i    => some i
  | .error _ => none

end Sys2Proof
end

