-- ==== Sys2Proof/Machine/State.lean ====
section
/-! DEFINITION. The state of the block as plain data (10_state.md), the reasons a step can stop, and the state after
reset (R31). -/

namespace Sys2Proof.Machine

/-- LIFE[e] (R23). Seeded-Untwisted is never an engine's state at a command boundary, so it has no constructor. -/
inductive Life where
  /-- 0: neither seeded nor injected since reset; the engine's vector and cursor hold no value. -/
  | uninit
  /-- 1: the source's "Advancing". -/
  | advancing
  deriving DecidableEq, Repr

/-- One engine instance (R20): state vector MT[e] (R21), cursor CUR[e] (R22), life state LIFE[e] (R23). -/
structure Engine where
  life : Life
  cur  : Count
  mt   : WordVec
  deriving DecidableEq, Repr

/-- The command that is executing while BUSY = 1 (R185): what the CMD write latched, and what has happened since. -/
structure Executing where
  /-- The CMD word as written (R26, R44). -/
  cmd     : Word
  /-- The value of DATA at the moment of the CMD write (R44). -/
  operand : Word
  /-- The host accesses that still arrive before the command completes: a free value, drawn at the CMD write (R191). -/
  wait    : Nat
  /-- The CMD word of the first write refused while BUSY = 1, if any (R156). -/
  refused : Option Word
  deriving DecidableEq, Repr

/-- What the outside does to the block: an access to the register window (R41 to R46), a wait (R69), or the reset
input (R180). -/
inductive HostEvent where
  /-- A read access of `width` bits at a byte address. -/
  | read (width addr : Nat)
  /-- A write access of `width` bits at a byte address. -/
  | write (width addr : Nat) (value : Word)
  /-- The host waits until STATUS.BUSY = 0 (R69, R185). -/
  | awaitIdle
  /-- The reset input is asserted (R180). -/
  | assertReset
  /-- The reset input is released. -/
  | releaseReset
  deriving DecidableEq, Repr

/-- The whole state: the configuration the block was built with, the tuple of 10_state.md, the command in execution,
and the model's own record of the host. Lists and vectors only, so two states can be compared. -/
structure State where
  /-- The configuration record (R6, R7). It is not state of the block: no step changes it. -/
  config   : Config
  /-- MT, CUR and LIFE of engines 0 .. NUM_ENGINES-1 (R20). NUM_ENGINES (R8) is this list's length. -/
  engines  : List Engine
  /-- BUF[0] .. BUF[623] (R24). -/
  buf      : WordVec
  /-- BCNT (R24, R25). -/
  bcnt     : Count
  /-- DATA (R27). -/
  data     : Word
  /-- RESULT (R29). -/
  result   : Word
  /-- STATUS.HALTED (R28). -/
  halted   : Bool
  /-- STATUS.CAUSE (R28, R151). -/
  cause    : Cause
  /-- FAULTCMD (R30). -/
  faultCmd : Word
  /-- The command in execution: STATUS.BUSY is 1 exactly when there is one (R28, R185). -/
  executing : Option Executing
  /-- The reset input is asserted (R180). -/
  inReset  : Bool
  /-- What the host will do, the next event first: the input of a run, not state of the block (R38). -/
  host     : List HostEvent
  /-- The values the host's reads have returned, the oldest first: the observation of a run (R183). -/
  observed : List Word
  /-- How many free values the run has drawn. -/
  draws    : Nat
  deriving DecidableEq, Repr

/-- Why the machine stops. -/
inductive Fault where
  /-- Raised by a host access that R42 does not admit: not 32 bits wide, not at a multiple of 4, or outside the window.
  Such an access "has no step in the model (the host is stuck)". Safe: the model stops where a bus may go on. -/
  | accessNotAdmitted
  deriving DecidableEq, Repr

/-- Why an instruction has no meaning. -/
inductive Refusal where
  /-- Raised by `exec`'s arm of an instruction that has no meaning yet; no arm does so now. Safe: the model stops. -/
  | notModelled (mnemonic : String)
  deriving DecidableEq, Repr

/-- Engine `e` after reset (R31): UNINIT, its vector and cursor holding "no value", which the model writes as
uninterpreted constants. -/
def Engine.reset (e : Nat) : Engine where
  life := .uninit
  cur  := Config.noValueCursor e
  mt   := Vector.ofFn fun i => Config.noValueWord e i.val

/-- The block right after reset (R31, R180), with the default configuration and number of engines (R6, R8), nothing
sent by the host and nothing observed. -/
def State.reset : State where
  config    := Config.standard
  engines   := (List.range Config.numEngines).map Engine.reset
  buf       := Vector.ofFn fun j => Config.noValueBuf j.val
  bcnt      := 0
  data      := 0
  result    := 0
  halted    := false
  cause     := .none
  faultCmd  := 0
  executing := none
  inReset   := false
  host      := []
  observed  := []
  draws     := 0

end Sys2Proof.Machine
end

