-- ==== Sys2Proof/Machine/Operands.lean ====
section
/-! DEFINITION. Where a command's operands come from (30_encoding.md R60, R63, R67): the DATA operand and the engines it
names. -/

namespace Sys2Proof.Machine

/-- NUM_ENGINES, the number of engine instances of the block (R8, R20). -/
def State.numEngines (s : State) : Nat := s.engines.length

/-- STATUS.BUSY (R28, R185): 1 while a command is executing. -/
def State.busy (s : State) : Bool := s.executing.isSome

/-- The DATA operand of the command (R60, R67): the value of DATA latched at its CMD write (R44). With no command in
execution it is DATA itself, which is the operand of R11's `Step(state, cmdword, data)` driven without the window. -/
def State.operand (s : State) : Word :=
  match s.executing with
  | some x => x.operand
  | none   => s.data

/-- Engine `e` (R63); none when the field is not below NUM_ENGINES. -/
def State.engine? (s : State) (e : BitVec 4) : Option Engine := s.engines[e.toNat]?

end Sys2Proof.Machine
end

