-- ==== Sys2Proof/Machine/Flags.lean ====
section
/-! DEFINITION. The status register (10_state.md R28). The block has no condition codes (R35): BUSY, HALTED, CAUSE and
BCNT are its only flags. -/

namespace Sys2Proof.Machine

/-- The cause code held in STATUS.CAUSE (60_exceptions.md R151). -/
def causeCode : Cause → Nat
  | .none       => 0
  | .illegalCmd => 1
  | .badEngine  => 2
  | .uninit     => 3
  | .lenMismatch => 4
  | .overrun    => 5

/-- STATUS (R28): BUSY in bit 0, HALTED in bit 1, CAUSE in bits 7:4, BCNT in bits 17:8, every other bit 0. -/
def State.statusWord (s : State) : Word :=
  BitVec.ofNat 32 s.busy.toNat |||
  BitVec.ofNat 32 s.halted.toNat <<< 1 |||
  BitVec.ofNat 32 (causeCode s.cause) <<< 4 |||
  BitVec.ofNat 32 s.bcnt.val <<< 8

end Sys2Proof.Machine
end

