-- ==== Sys2Proof/Machine/Ops.lean ====
section
/-! DEFINITION. The named operations over the block's registers: words of a vector, counts, engines, the recovery
buffer, taking a fault (60_exceptions.md R158), the end of a command (R156) and reset (70_reset_and_hazards.md R180),
which is the only way out of the halted state (R161). -/

namespace Sys2Proof.Machine

/-- Word `i mod 624` of a vector: the reduction is the one the twist writes out (R101); every other index is below 624. -/
def wordAt (v : WordVec) (i : Nat) : Word := v[i % 624]'(Nat.mod_lt i (by decide))

/-- The vector with word `i mod 624` replaced. -/
def setWord (v : WordVec) (i : Nat) (w : Word) : WordVec := v.set (i % 624) w (Nat.mod_lt i (by decide))

/-- One more, never past 624 (R22, R25). -/
def countUp (c : Count) : Count := ⟨min (c.val + 1) 624, by omega⟩

/-- The count 624: a cursor with a twist pending (R22), or a full buffer (R24). -/
def full : Count := ⟨624, by decide⟩

/-- Replaces engine `e`; a field that names no engine changes nothing. -/
def State.setEngine (s : State) (e : BitVec 4) (g : Engine) : State :=
  { s with engines := s.engines.set e.toNat g }

/-- Writes RESULT (R29). -/
def State.setResult (s : State) (w : Word) : State := { s with result := w }

/-- Empties the recovery buffer; BUF keeps its words (R130). -/
def State.clearBuffer (s : State) : State := { s with bcnt := 0 }

/-- Appends one captured word: BUF[BCNT] and BCNT are written (R131, R132). -/
def State.pushWord (s : State) (w : Word) : State :=
  { s with buf := setWord s.buf s.bcnt.val w, bcnt := countUp s.bcnt }

/-- Replaces the whole recovery buffer and its count. -/
def State.setBuffer (s : State) (buf : WordVec) (bcnt : Count) : State :=
  { s with buf := buf, bcnt := bcnt }

/-- An engine that has just been injected with `words` (R106): cursor 624, so that its next output twists first. -/
def Engine.injected (words : WordVec) : Engine where
  life := .advancing
  cur  := full
  mt   := words

/-- Fault entry (R158), the one exception entry of the block: HALTED, CAUSE and FAULTCMD are written and nothing else.
While HALTED = 1 they keep the first fault's values (R159). -/
def State.raiseFault (s : State) (c : Cause) (cmd : Word) : State :=
  if s.halted then s else { s with halted := true, cause := c, faultCmd := cmd }

/-- What a command that raises a fault answers: fault entry with the command's own CMD word (R150, R158). -/
def faulting (c : Cause) (i : Instr) (s : State) : Host.Outcome State Fault Refusal :=
  .next (s.raiseFault c (encode i))

/-- The end of the executing command: BUSY returns to 0 after its writes, and a CMD write refused in the meantime is
then recorded as OVERRUN, unless the command itself faulted (R156, R185). -/
def State.retire (s : State) (x : Executing) : State :=
  match x.refused with
  | none   => { s with executing := none }
  | some w => { s with executing := none }.raiseFault .overrun w

/-- Reset asserted (R180): the executing command is aborted with none of its writes, and every piece of state takes
its value of R31. The configuration (R181) and the model's record of the host stay. -/
def State.resetBlock (s : State) : State :=
  { State.reset with
    config   := s.config
    engines  := (List.range s.numEngines).map Engine.reset
    inReset  := true
    host     := s.host
    observed := s.observed
    draws    := s.draws }

end Sys2Proof.Machine
end

