-- ==== Sys2Proof/Machine/Transforms.lean ====
section
/-! DEFINITION. The tempering and untempering transforms (40_transforms.md) and the commands TEMPER and UNTEMPER. -/

namespace Sys2Proof.Machine

/-- StepR(x, k, m) of R81. -/
def stepR (x : Word) (p : ShiftMask) : Word := x ^^^ ((x >>> p.shift) &&& p.mask)

/-- StepL(x, k, m) of R81. -/
def stepL (x : Word) (p : ShiftMask) : Word := x ^^^ ((x <<< p.shift) &&& p.mask)

/-- Temper (R80): right, left, left, right, each step reading what the one before produced. -/
def temper (c : Config) (x : Word) : Word :=
  stepR (stepL (stepL (stepR x c.step1) c.step2) c.step3) c.step4

/-- `x` with bit `i` made `b`: the assignment `x[i] <- b` of R83 and R84. -/
def setBit (x : Word) (i : Nat) (b : Bool) : Word :=
  if b then x ||| BitVec.twoPow 32 i else x &&& ~~~BitVec.twoPow 32 i

/-- The loop of InvR after `j` rounds (R83): bits 31, 30, ..., 32 - j of x are known. -/
def invRLoop (y : Word) (p : ShiftMask) : Nat → Word
  | 0     => 0
  | j + 1 =>
    let x := invRLoop y p j
    let i := 31 - j
    if 32 ≤ i + p.shift then setBit x i (y.getLsbD i)
    else setBit x i (y.getLsbD i ^^ (x.getLsbD (i + p.shift) && p.mask.getLsbD i))

/-- InvR (R83): the inverse of a right-shift step, from bit 31 down to bit 0. -/
def invR (y : Word) (p : ShiftMask) : Word := invRLoop y p 32

/-- The loop of InvL after `j` rounds (R84): bits 0, 1, ..., j - 1 of x are known. -/
def invLLoop (y : Word) (p : ShiftMask) : Nat → Word
  | 0     => 0
  | i + 1 =>
    let x := invLLoop y p i
    if i < p.shift then setBit x i (y.getLsbD i)
    else setBit x i (y.getLsbD i ^^ (x.getLsbD (i - p.shift) && p.mask.getLsbD i))

/-- InvL (R84): the inverse of a left-shift step, from bit 0 up to bit 31. -/
def invL (y : Word) (p : ShiftMask) : Word := invLLoop y p 32

/-- Untemper (R85): the four inverse steps in the reverse order. -/
def untemper (c : Config) (y : Word) : Word :=
  invR (invL (invL (invR y c.step4) c.step3) c.step2) c.step1

/-- TEMPER (R88). -/
def execTemper (s : State) : Host.Outcome State Fault Refusal :=
  .next (s.setResult (temper s.config s.operand))

/-- UNTEMPER (R89). -/
def execUntemper (s : State) : Host.Outcome State Fault Refusal :=
  .next (s.setResult (untemper s.config s.operand))

end Sys2Proof.Machine
end

