-- ==== Sys2Proof/Machine/Generator.lean ====
section
/-! DEFINITION. The generator engine (41_engine.md): seeding, the twist, one draw of an engine, and the commands SEED,
NEXT and INJECT. -/

namespace Sys2Proof.Machine

/-- The seeding recurrence (R100): word 0 is the seed, word i is `F * (w XOR (w >> 30)) + i` of word i-1, mod 2^32. -/
def seedWord (c : Config) (seed : Word) : Nat → Word
  | 0     => seed
  | i + 1 =>
    let w := seedWord c seed i
    c.seedMult * (w ^^^ (w >>> 30)) + BitVec.ofNat 32 (i + 1)

/-- SeedFill (R100). -/
def seedFill (c : Config) (seed : Word) : WordVec := Vector.ofFn fun i => seedWord c seed i.val

/-- The new value the twist gives word `i` of the vector as it then stands (R101). -/
def twistWord (c : Config) (v : WordVec) (i : Nat) : Word :=
  let y := (wordAt v i &&& c.upperMask) ||| (wordAt v (i + 1) &&& c.lowerMask)
  let t := wordAt v (i + 397) ^^^ (y >>> 1)
  if y.getLsbD 0 then t ^^^ c.twistMix else t

/-- The vector after the twist's steps 0 .. k-1, made in place and in increasing order (R101, D4). -/
def twistLoop (c : Config) (v : WordVec) : Nat → WordVec
  | 0     => v
  | k + 1 =>
    let w := twistLoop c v k
    setWord w k (twistWord c w k)

/-- Twist (R101). -/
def twist (c : Config) (v : WordVec) : WordVec := twistLoop c v 624

/-- The engine with a pending twist run: at cursor 624 the vector is twisted and the cursor reset to 0 (R105). -/
def Engine.refill (c : Config) (g : Engine) : Engine :=
  if g.cur = full then { g with mt := twist c g.mt, cur := 0 } else g

/-- One draw of an ADVANCING engine (R105): the raw word at the cursor, and the engine with its cursor advanced. -/
def Engine.draw (c : Config) (g : Engine) : Word × Engine :=
  let g' := g.refill c
  (wordAt g'.mt g'.cur.val, { g' with cur := countUp g'.cur })

/-- An engine that has just been seeded (R104): SeedFill and the mandatory first twist, cursor 0. -/
def Engine.seeded (c : Config) (seed : Word) : Engine where
  life := .advancing
  cur  := 0
  mt   := twist c (seedFill c seed)

/-- SEED (R104). -/
def execSeed (e : BitVec 4) (s : State) : Host.Outcome State Fault Refusal :=
  match s.engine? e with
  | none   => faulting .badEngine (.seed e) s
  | some _ => .next (s.setEngine e (Engine.seeded s.config s.operand))

/-- NEXT (R105). -/
def execNext (e : BitVec 4) (s : State) : Host.Outcome State Fault Refusal :=
  match s.engine? e with
  | none   => faulting .badEngine (.next e) s
  | some g =>
    match g.life with
    | .uninit    => faulting .uninit (.next e) s
    | .advancing =>
      let (x, g') := g.draw s.config
      .next ((s.setEngine e g').setResult (temper s.config x))

/-- INJECT (R106). -/
def execInject (e : BitVec 4) (s : State) : Host.Outcome State Fault Refusal :=
  match s.engine? e with
  | none   => faulting .badEngine (.inject e) s
  | some _ =>
    if s.bcnt = full then .next ((s.setEngine e (Engine.injected s.buf)).clearBuffer)
    else faulting .lenMismatch (.inject e) s

end Sys2Proof.Machine
end

