-- ==== Sys2Proof/Machine/Recovery.lean ====
section
/-! DEFINITION. The state recovery orchestrator (42_recovery.md): the commands BUF_CLEAR, PUSH_RAW, PUSH_OUT and
RECOVER. -/

namespace Sys2Proof.Machine

/-- BUF_CLEAR (R130). -/
def execBufClear (s : State) : Host.Outcome State Fault Refusal :=
  .next s.clearBuffer

/-- PUSH_RAW (R131). -/
def execPushRaw (s : State) : Host.Outcome State Fault Refusal :=
  if s.bcnt = full then faulting .lenMismatch .pushRaw s
  else .next (s.pushWord s.operand)

/-- PUSH_OUT (R132). -/
def execPushOut (s : State) : Host.Outcome State Fault Refusal :=
  if s.bcnt = full then faulting .lenMismatch .pushOut s
  else .next (s.pushWord (untemper s.config s.operand))

/-- The capture loop of RECOVER after `k` draws (R133): the source engine as it then stands, and the buffer with its
words 0 .. k-1 captured, each the untempered output of one draw. -/
def captureLoop (c : Config) (g : Engine) (buf : WordVec) : Nat → Engine × WordVec
  | 0     => (g, buf)
  | k + 1 =>
    let (g', buf') := captureLoop c g buf k
    let (x, g'') := g'.draw c
    (g'', setWord buf' k (untemper c (temper c x)))

/-- RECOVER (R133): 624 draws of engine `src` into the buffer, then the buffer into engine `dst`. -/
def execRecover (dst src : BitVec 4) (s : State) : Host.Outcome State Fault Refusal :=
  match s.engine? dst, s.engine? src with
  | some _, some g =>
    match g.life with
    | .uninit    => faulting .uninit (.recover dst src) s
    | .advancing =>
      let (g', buf') := captureLoop s.config g s.buf 624
      .next (((s.setEngine src g').setBuffer buf' 0).setEngine dst (Engine.injected buf'))
  | _, _ => faulting .badEngine (.recover dst src) s

end Sys2Proof.Machine
end

