-- ==== Sys2Proof/Machine/Dispatch.lean ====
section
/-! DEFINITION. One arm per command of the opcode map (30_encoding.md R62): the effect of a command that the sequencer
has accepted. A CMD write is accepted only while BUSY = 0 and HALTED = 0 (R44, R159), so no arm asks for HALTED. -/

namespace Sys2Proof.Machine

def exec (i : Instr) (s : State) : Host.Outcome State Fault Refusal :=
  match i with
  | .seed e => Sys2Proof.Machine.execSeed e s
  | .next e => Sys2Proof.Machine.execNext e s
  | .bufClear => Sys2Proof.Machine.execBufClear s
  | .pushRaw => Sys2Proof.Machine.execPushRaw s
  | .pushOut => Sys2Proof.Machine.execPushOut s
  | .inject e => Sys2Proof.Machine.execInject e s
  | .recover d src => Sys2Proof.Machine.execRecover d src s
  | .temper => Sys2Proof.Machine.execTemper s
  | .untemper => Sys2Proof.Machine.execUntemper s

end Sys2Proof.Machine
end

