-- ==== Sys2Proof/Machine/HostPort.lean ====
section
/-! DEFINITION. The register window (20_memory.md R41 to R46) and what one event from outside does to the block. -/

namespace Sys2Proof.Machine

/-- The registers of the window (R41). -/
inductive WindowReg where
  | cmd
  | data
  | result
  | status
  | faultCmd
  /-- Offsets 0x14 .. 0x3C (R45). -/
  | reserved
  deriving DecidableEq, Repr

/-- The register at a byte offset of the window that is a multiple of 4 (R41). -/
def windowReg (offset : Nat) : WindowReg :=
  match offset with
  | 0x00 => .cmd
  | 0x04 => .data
  | 0x08 => .result
  | 0x0C => .status
  | 0x10 => .faultCmd
  | _    => .reserved

/-- The register an access reaches, none where R42 does not admit it: a 32-bit access at a multiple of 4 inside the
window's 0x40 bytes at MTB_BASE. -/
def admitted (base width addr : Nat) : Option WindowReg :=
  if width = 32 ∧ base ≤ addr ∧ addr < base + 0x40 ∧ (addr - base) % 4 = 0 then some (windowReg (addr - base))
  else none

/-- HostRead (R41): CMD and the reserved offsets read 0 (R26, R45), RESULT reads any value while BUSY = 1 (R186), and
STATUS reads as it was before the executing command (R46). -/
def State.readReg (s : State) : WindowReg → Word
  | .cmd      => 0
  | .data     => s.data
  | .result   => if s.busy then Config.freeResult s.draws else s.result
  | .status   => s.statusWord
  | .faultCmd => s.faultCmd
  | .reserved => 0

/-- A read has no side effect on the block (R44): the model records the value returned (R183), and takes a new free
value when one was read. -/
def State.hostRead (s : State) (r : WindowReg) : State :=
  { s with
    observed := s.observed ++ [s.readReg r]
    draws    := if r = .result ∧ s.busy then s.draws + 1 else s.draws }

/-- A CMD write (R44): ignored while halted (R159) and while reset is asserted (R180); refused, and remembered as
OVERRUN, while a command executes (R156); otherwise it submits the command with the current value of DATA. DESIGN CHOICE
(log entry 5): the command's wait depends on the count of draws alone, not on the command or on whether it twists; R192
leaves that open, so a claim that compares the latency of two runs is unsafe. -/
def State.writeCmd (s : State) (w : Word) : State :=
  if s.halted || s.inReset then s
  else match s.executing with
    | some x => { s with executing := some { x with refused := some (x.refused.getD w) } }
    | none   =>
      { s with
        executing := some { cmd := w, operand := s.data, wait := Config.accessesWhileBusy s.draws, refused := none }
        draws     := s.draws + 1 }

/-- HostWrite (R41): a write to DATA only sets DATA, and every register but CMD and DATA ignores writes (R44, R45). -/
def State.hostWrite (s : State) (r : WindowReg) (w : Word) : State :=
  match r with
  | .cmd      => s.writeCmd w
  | .data     => { s with data := w }
  | .result   => s
  | .status   => s
  | .faultCmd => s
  | .reserved => s

/-- What one event from outside does. An access that is not admitted has no step (R42). -/
def hostEvent (ev : HostEvent) (s : State) : Host.Outcome State Fault Refusal :=
  match ev with
  | .read width addr =>
    match admitted s.config.base width addr with
    | some r => .next (s.hostRead r)
    | none   => .fault .accessNotAdmitted
  | .write width addr value =>
    match admitted s.config.base width addr with
    | some r => .next (s.hostWrite r value)
    | none   => .fault .accessNotAdmitted
  | .awaitIdle    => .next s
  | .assertReset  => .next s.resetBlock
  | .releaseReset => .next { s with inReset := false }

/-- The next event of the host, if it sends one; with none the block keeps all state (R168). -/
def hostTurn (s : State) : Host.Outcome State Fault Refusal :=
  match s.host with
  | []         => .next s
  | ev :: rest => hostEvent ev { s with host := rest }

end Sys2Proof.Machine
end

