-- ==== Sys2Proof/Machine/Sequencer.lean ====
section
/-! DEFINITION. The command sequencer, the one agent of the block that steps (00_scope.md R12): it decodes the latched
CMD word, runs the command as one atomic step (R11) and returns BUSY to 0 (R185). -/

namespace Sys2Proof.Machine

/-- The latched command, decoded and run: a decoding fault is taken before the command's own checks (R65, R157). In a
halted block a command step is the identity (R35, R159). -/
def runCommand (x : Executing) (s : State) : Host.Outcome State Fault Refusal :=
  if s.halted then .next s
  else match decode s.numEngines x.cmd with
    | .error c => .next (s.raiseFault c x.cmd)
    | .ok i    => exec i s

/-- The executing command completes: all its writes at once, then BUSY returns to 0 (R46, R156, R185). -/
def complete (x : Executing) (s : State) : Host.Outcome State Fault Refusal :=
  match runCommand x s with
  | .next t    => .next (t.retire x)
  | .fault f   => .fault f
  | .refused r => .refused r

/-- The executing command completes now: its free number of host accesses has arrived, or the host sends nothing more,
or the host waits for BUSY = 0 (R185, R191: every command finishes). -/
def completesNow (x : Executing) (host : List HostEvent) : Bool :=
  match host with
  | []              => true
  | .awaitIdle :: _ => true
  | _ :: _          => x.wait == 0

/-- One host access of the executing command's wait has come. -/
def State.passAccess (s : State) (x : Executing) : State :=
  { s with executing := some { x with wait := x.wait - 1 } }

/-- One step: the executing command completes, or else the host's next event is taken (R11, R12, R48). -/
def stepOnce (s : State) : Host.Outcome State Fault Refusal :=
  match s.executing with
  | none   => hostTurn s
  | some x => if completesNow x s.host then complete x s else hostTurn (s.passAccess x)

/-- A command placed in the sequencer as an accepted CMD write leaves it, about to complete (R44). -/
def State.placeCommand (s : State) (cmd : Word) : State :=
  { s with executing := some { cmd := cmd, operand := s.data, wait := 0, refused := none } }

end Sys2Proof.Machine
end

