-- ==== Sys2Proof/Machine/Step.lean ====
section
/-! DEFINITION. The step of the machine, and the placing of one command where the next step runs it. -/

namespace Sys2Proof.Machine

/-- One step of the block (00_scope.md R11, R12). -/
def step : State → Host.Outcome State Fault Refusal := stepOnce

/-- `s` with the CMD word of bits `nbits-1 .. 0` of `w` accepted and about to complete, its DATA operand the current
DATA: the block fetches nothing (R34, R52), so this stands for the host's CMD write. -/
def State.withFetchWord (s : State) (nbits w : Nat) : State :=
  s.placeCommand (BitVec.ofNat 32 (w % 2 ^ nbits))

end Sys2Proof.Machine
end

