-- ==== Sys2Proof/Machine/Assembler.lean ====
section
/-! DEFINITION. The host's command streams: one line of the spec's assembly syntax (30_encoding.md R69) and the
pseudo-instructions (R70), each as the host events it stands for. -/

namespace Sys2Proof.Machine

/-- One assembler line (R69): write DATA if the line has `#<v>`, write the CMD word, wait until BUSY = 0. -/
def asmLine (base : Nat) (i : Instr) (v : Option Word) : List HostEvent :=
  (match v with
    | some w => [.write 32 (base + 0x04) w]
    | none   => []) ++
  [.write 32 (base + 0x00) (encode i), .awaitIdle]

/-- LOADSTATE (R70): raw words into the buffer, then into engine `e`. -/
def asmLoadState (base : Nat) (e : BitVec 4) (words : List Word) : List HostEvent :=
  asmLine base .bufClear none ++ words.flatMap (fun w => asmLine base .pushRaw (some w)) ++
  asmLine base (.inject e) none

/-- CAPTURE (R70): output words into the buffer, then into engine `d`. -/
def asmCapture (base : Nat) (d : BitVec 4) (outputs : List Word) : List HostEvent :=
  asmLine base .bufClear none ++ outputs.flatMap (fun y => asmLine base .pushOut (some y)) ++
  asmLine base (.inject d) none

/-- CLONE (R70). -/
def asmClone (base : Nat) (d s : BitVec 4) : List HostEvent := asmLine base (.recover d s) none

/-- DRAW (R70): NEXT repeated `k` times, the host reading RESULT after each. -/
def asmDraw (base : Nat) (e : BitVec 4) (k : Nat) : List HostEvent :=
  (List.replicate k (asmLine base (.next e) none ++ [.read 32 (base + 0x08)])).flatten

end Sys2Proof.Machine
end

