-- ==== Sys2Proof/Safety.lean ====
section
/-! DEFINITION. The terms claims are stated in: a run without a fault, the invariant of the block, raw streams and
positions (41_engine.md R103, R107), outputs drawn by NEXT, and agreement up to registers that hold "no value". -/

namespace Sys2Proof.Machine

/-- No fault has been raised since reset: the premise R159 asks of a claim about a run. -/
abbrev State.Safe (s : State) : Prop := s.halted = false

/-- The facts that hold at every step of a run: the number of engines and the configuration are legal (R7, R8), HALTED,
CAUSE and FAULTCMD tell one story (R28, R30, R158), and no command executes in a halted block or under reset (R159,
R180). -/
abbrev State.Inv (s : State) : Prop :=
  s.config.Valid ∧
  (2 ≤ s.numEngines ∧ s.numEngines ≤ 16) ∧
  (s.halted = true ↔ s.cause ≠ .none) ∧
  (s.halted = false → s.faultCmd = 0) ∧
  (s.halted = true → s.executing = none) ∧
  (s.inReset = true → s.executing = none)

/-- Mix(a, b) of the stream law (R103). -/
def mix (c : Config) (a b : Word) : Word :=
  let y := (a &&& c.upperMask) ||| (b &&& c.lowerMask)
  if y.getLsbD 0 then (y >>> 1) ^^^ c.twistMix else y >>> 1

/-- `x` is a raw stream from index `j` on: every word from `x (j + 624)` on is the one R103 extends it by. -/
def IsStreamFrom (c : Config) (x : Nat → Word) (j : Nat) : Prop :=
  ∀ k, j ≤ k → x (k + 624) = x (k + 397) ^^^ mix c (x k) (x (k + 1))

/-- The vector holds the window `x j .. x (j + 623)` of a sequence. -/
def Window (x : Nat → Word) (j : Nat) (v : WordVec) : Prop :=
  ∀ i, i < 624 → wordAt v i = x (j + i)

/-- An ADVANCING engine at position `p` of the raw stream `x` (R107): its vector is a window of the stream and its
cursor the distance from the window's start to `p`. -/
def Engine.AtPosition (c : Config) (x : Nat → Word) (p : Nat) (g : Engine) : Prop :=
  g.life = .advancing ∧ ∃ j, p = j + g.cur.val ∧ IsStreamFrom c x j ∧ Window x j g.mt

/-- The state after a command that answers a next state, and the same state after one that stops. -/
def State.after (s : State) (i : Instr) : State :=
  match exec i s with
  | .next t    => t
  | .fault _   => s
  | .refused _ => s

/-- The state after `n` NEXTs on engine `e`. -/
def State.afterNexts (s : State) (e : BitVec 4) : Nat → State
  | 0     => s
  | n + 1 => (s.afterNexts e n).after (.next e)

/-- RESULT after the `n`-th NEXT on engine `e`, counted from 0 (R109, R135). -/
def State.output (s : State) (e : BitVec 4) (n : Nat) : Word := (s.afterNexts e (n + 1)).result

/-- The capture loop a host runs (R134): `k` times NEXT on engine `src`, then PUSH_OUT with DATA set to RESULT. -/
def State.hostCapture (s : State) (src : BitVec 4) : Nat → State
  | 0     => s
  | k + 1 =>
    let t := (s.hostCapture src k).after (.next src)
    { t with data := t.result }.after .pushOut

/-- The pushes of a CAPTURE (R70): PUSH_OUT of the output words `y 0 .. y (k - 1)`, in order. -/
def State.pushOutputs (s : State) (y : Nat → Word) : Nat → State
  | 0     => s
  | k + 1 => { s.pushOutputs y k with data := y k }.after .pushOut

/-- Two engines that differ at most in registers that hold "no value" (R23, R31). -/
def Engine.SameValues (g h : Engine) : Prop :=
  g.life = h.life ∧ (g.life = .advancing → g = h)

/-- Two states that differ at most in registers that hold "no value": the vector and cursor of an UNINIT engine, and
the buffer from BCNT on (R31 to R33). -/
def State.SameValues (s t : State) : Prop :=
  { s with engines := t.engines, buf := t.buf } = t ∧
  List.Forall₂ Engine.SameValues s.engines t.engines ∧
  (∀ j, j < s.bcnt.val → wordAt s.buf j = wordAt t.buf j)

/-- Two outcomes of the same kind whose next states differ at most in registers that hold "no value". -/
def SameOutcome : Host.Outcome State Fault Refusal → Host.Outcome State Fault Refusal → Prop
  | .next s,    .next t    => s.SameValues t
  | .fault f,   .fault g   => f = g
  | .refused r, .refused q => r = q
  | _,          _          => False

end Sys2Proof.Machine
end

