-- ==== Sys2Proof/Certificates/Slice0/Obligations.lean ====
section
/-! DEFINITION. The statements for the provers, in the order of OBLIGATIONS.json: decoding, transforms, the generator
engine, recovery, faults, the register window and the sequencer, reset and the whole machine. -/

open Sys2Proof Sys2Proof.Machine

/-! Decoding (30_encoding.md) -/

/-- CMD words written out from the table of R68, for blocks of 2 and of 16 engines. -/
def Obligations.TableWordsDecode : Prop :=
  decode 2 0x00000001#32 = .ok (.seed 0) ∧ decode 2 0x00000101#32 = .ok (.seed 1) ∧
  decode 2 0x00000002#32 = .ok (.next 0) ∧ decode 16 0x00000F02#32 = .ok (.next 15) ∧
  decode 2 0x00000003#32 = .ok .bufClear ∧ decode 2 0x00000004#32 = .ok .pushRaw ∧
  decode 2 0x00000005#32 = .ok .pushOut ∧ decode 2 0x00000106#32 = .ok (.inject 1) ∧
  decode 2 0x00000107#32 = .ok (.recover 1 0) ∧ decode 16 0x0000AB07#32 = .ok (.recover 0xB 0xA) ∧
  decode 2 0x00000008#32 = .ok .temper ∧ decode 2 0x00000009#32 = .ok .untemper

/-- Decoding an encoded well-formed command gives it back, whatever the number of engines (R65, R68). -/
def Obligations.DecodeOfEncodeIsTheCommand : Prop :=
  ∀ (n : Nat) (i : Instr), i.wellFormed n = true → decode n (encode i) = .ok i

/-- A CMD word that decodes is the encoding of what it decodes to, and that command is well-formed (R63, R65, R68). -/
def Obligations.EncodeOfDecodeIsTheWord : Prop :=
  ∀ (n : Nat) (cmd : Word) (i : Instr), decode n cmd = .ok i → encode i = cmd ∧ i.wellFormed n = true

/-- Which CMD words decode to which command, each word given as a number (R61, R62, R68). -/
def Obligations.CommandWordsOfEachCommand : Prop :=
  ∀ (n : Nat) (cmd : Word),
    (∀ e : BitVec 4, decode n cmd = .ok (.seed e) ↔ cmd.toNat = 1 + 256 * e.toNat ∧ e.toNat < n) ∧
    (∀ e : BitVec 4, decode n cmd = .ok (.next e) ↔ cmd.toNat = 2 + 256 * e.toNat ∧ e.toNat < n) ∧
    (decode n cmd = .ok .bufClear ↔ cmd.toNat = 3) ∧
    (decode n cmd = .ok .pushRaw ↔ cmd.toNat = 4) ∧
    (decode n cmd = .ok .pushOut ↔ cmd.toNat = 5) ∧
    (∀ e : BitVec 4, decode n cmd = .ok (.inject e) ↔ cmd.toNat = 6 + 256 * e.toNat ∧ e.toNat < n) ∧
    (∀ d s : BitVec 4, decode n cmd = .ok (.recover d s) ↔
      cmd.toNat = 7 + 256 * d.toNat + 4096 * s.toNat ∧ d.toNat < n ∧ s.toNat < n) ∧
    (decode n cmd = .ok .temper ↔ cmd.toNat = 8) ∧
    (decode n cmd = .ok .untemper ↔ cmd.toNat = 9)

/-- ILLEGAL_CMD exactly when RSV is non-zero, OP is reserved, or an engine field that the opcode does not use is
non-zero; any opcode can raise it (R152), and RSV makes a word illegal whatever its OP (R64). -/
def Obligations.IllegalCommandWords : Prop :=
  (∀ (n : Nat) (cmd : Word), decode n cmd = .error .illegalCmd ↔
    (cmd.toNat / 65536 ≠ 0 ∨ cmd.toNat % 256 = 0x00 ∨ 0x0A ≤ cmd.toNat % 256 ∨
      (cmd.toNat % 256 ∈ [0x03, 0x04, 0x05, 0x08, 0x09] ∧ cmd.toNat / 256 % 16 ≠ 0) ∨
      (cmd.toNat % 256 ∈ [0x01, 0x02, 0x03, 0x04, 0x05, 0x06, 0x08, 0x09] ∧ cmd.toNat / 4096 % 16 ≠ 0))) ∧
  (∀ n op : Nat, op < 256 → ∃ cmd : Word, cmd.toNat % 256 = op ∧ decode n cmd = .error .illegalCmd)

/-- BAD_ENGINE exactly when a word is not illegal and SEED, NEXT or INJECT has EA >= NUM_ENGINES, or RECOVER has EA or
EB >= NUM_ENGINES; never with 16 engines (R153). No other fault is raised by decoding (R65). -/
def Obligations.BadEngineCommandWords : Prop :=
  (∀ (n : Nat) (cmd : Word), decode n cmd = .error .badEngine ↔
    decode n cmd ≠ .error .illegalCmd ∧
    ((cmd.toNat % 256 ∈ [0x01, 0x02, 0x06] ∧ n ≤ cmd.toNat / 256 % 16) ∨
      (cmd.toNat % 256 = 0x07 ∧ (n ≤ cmd.toNat / 256 % 16 ∨ n ≤ cmd.toNat / 4096 % 16)))) ∧
  (∀ cmd : Word, decode 16 cmd ≠ .error .badEngine) ∧
  (∀ (n : Nat) (cmd : Word) (c : Cause), decode n cmd = .error c → c = .illegalCmd ∨ c = .badEngine)

/-- A CMD word matches at most one row of R68's table, and it is illegal exactly when it matches none. -/
def Obligations.TableRowsAreDisjointAndComplete : Prop :=
  opcodeRows.Pairwise (fun r q => ∀ cmd : Word, ¬(r.admits cmd = true ∧ q.admits cmd = true)) ∧
  (∀ (n : Nat) (cmd : Word), decode n cmd = .error .illegalCmd ↔ ∀ r ∈ opcodeRows, r.admits cmd = false)

/-! The transforms (40_transforms.md) -/

/-- StepR and StepL bit by bit, and Temper as their composition (R81). -/
def Obligations.TemperStepsBitByBit : Prop :=
  (∀ (c : Config) (x : Word),
    temper c x = stepR (stepL (stepL (stepR x c.step1) c.step2) c.step3) c.step4) ∧
  (∀ (p : ShiftMask) (x : Word) (i : Nat), p.Valid → i < 32 →
    (stepR x p).getLsbD i =
      (if i + p.shift ≤ 31 then x.getLsbD i ^^ (x.getLsbD (i + p.shift) && p.mask.getLsbD i) else x.getLsbD i)) ∧
  (∀ (p : ShiftMask) (x : Word) (i : Nat), p.Valid → i < 32 →
    (stepL x p).getLsbD i =
      (if p.shift ≤ i then x.getLsbD i ^^ (x.getLsbD (i - p.shift) && p.mask.getLsbD i) else x.getLsbD i))

/-- InvR(y, k, m) is the unique x with StepR(x, k, m) = y (R83), and InvL(y, k, m) the unique x with
StepL(x, k, m) = y (R84). -/
def Obligations.InverseStepsUndoTheSteps : Prop :=
  ∀ (p : ShiftMask) (y : Word), p.Valid →
    (stepR (invR y p) p = y ∧ ∀ x : Word, stepR x p = y → x = invR y p) ∧
    (stepL (invL y p) p = y ∧ ∀ x : Word, stepL x p = y → x = invL y p)

/-- The round-trip law, for every legal configuration: Untemper is the unique inverse of the bijection Temper
(R86, R87). -/
def Obligations.UntemperIsTheInverseOfTemper : Prop :=
  ∀ c : Config, c.Valid →
    (∀ x : Word, untemper c (temper c x) = x ∧ temper c (untemper c x) = x) ∧
    Function.Bijective (temper c) ∧
    (∀ f : Word → Word, (∀ x, temper c (f x) = x) → f = untemper c)

/-- The closed forms of 93_implementation_defined.md G7 compute Untemper under the standard constants. -/
def Obligations.ClosedFormOfUntemper : Prop :=
  ∀ y : Word,
    let x1 := y ^^^ (y >>> 18)
    let x2 := x1 ^^^ ((x1 <<< 15) &&& 0xEFC60000#32)
    let z1 := x2 ^^^ ((x2 <<< 7) &&& 0x9D2C5680#32)
    let z2 := x2 ^^^ ((z1 <<< 7) &&& 0x9D2C5680#32)
    let z3 := x2 ^^^ ((z2 <<< 7) &&& 0x9D2C5680#32)
    let z4 := x2 ^^^ ((z3 <<< 7) &&& 0x9D2C5680#32)
    untemper Config.standard y = z4 ^^^ (z4 >>> 11) ^^^ (z4 >>> 22)

/-- TEMPER (R88): its one CMD word, every other word with its OP being ILLEGAL_CMD; it completes in every state, RESULT
becoming Temper(DATA) and nothing else changing; and the rule's corner cases and example, under the standard
constants. -/
def Obligations.TemperWritesResult : Prop :=
  (∀ (n : Nat) (cmd : Word), cmd.toNat % 256 = 0x08 →
    decode n cmd = if cmd = 0x00000008#32 then .ok .temper else .error .illegalCmd) ∧
  (∀ s : State, exec .temper s = .next { s with result := temper s.config s.operand }) ∧
  (let c := Config.standard;
    temper c 0 = 0 ∧ temper c 0x00000002#32 = 0x00000002#32 ∧ temper c 0xFFFFFFFF#32 = 0x6FE01BF8#32 ∧
    temper c 0x80000000#32 = 0x88102204#32 ∧ temper c 0x12345678#32 = 0x2B7E4A2D#32 ∧
    stepR 0x12345678#32 c.step1 = 0x123610F2#32 ∧ stepL 0x123610F2#32 c.step2 = 0x0B3E40F2#32 ∧
    stepL 0x0B3E40F2#32 c.step3 = 0x2B7E40F2#32 ∧ stepR 0x2B7E40F2#32 c.step4 = 0x2B7E4A2D#32)

/-- UNTEMPER (R89): its one CMD word, every other word with its OP being ILLEGAL_CMD; it completes in every state, RESULT
becoming Untemper(DATA), the word whose tempering is DATA (R86), and nothing else changing; and the rule's corner cases
and example, under the standard constants. -/
def Obligations.UntemperWritesThePreimage : Prop :=
  (∀ (n : Nat) (cmd : Word), cmd.toNat % 256 = 0x09 →
    decode n cmd = if cmd = 0x00000009#32 then .ok .untemper else .error .illegalCmd) ∧
  (∀ s : State, exec .untemper s = .next { s with result := untemper s.config s.operand } ∧
    (s.config.Valid → temper s.config (untemper s.config s.operand) = s.operand)) ∧
  (let c := Config.standard;
    untemper c 0 = 0 ∧ untemper c 0x00000002#32 = 0x00000002#32 ∧ untemper c 0xFFFFFFFF#32 = 0x12DD9BB3#32 ∧
    untemper c 0x6FE01BF8#32 = 0xFFFFFFFF#32 ∧ untemper c 0x8C7F0AAC#32 = 0x91A10D12#32 ∧
    untemper c 0x2B7E4A2D#32 = 0x12345678#32)

/-! The generator engine (41_engine.md) -/

/-- SeedFill: word 0 is the seed, and each later word is the recurrence of the word before it (R100). -/
def Obligations.SeedingRecurrence : Prop :=
  ∀ (c : Config) (seed : Word),
    wordAt (seedFill c seed) 0 = seed ∧
    ∀ i, 1 ≤ i → i ≤ 623 →
      wordAt (seedFill c seed) i =
        c.seedMult * (wordAt (seedFill c seed) (i - 1) ^^^ (wordAt (seedFill c seed) (i - 1) >>> 30)) + BitVec.ofNat 32 i

/-- Which words the twist reads: old ones below 227, its own new ones from 227 on, and the new word 0 at 623 (R102). -/
def Obligations.TwistReadsOldAndNewWords : Prop :=
  ∀ (c : Config) (v : WordVec),
    (∀ i, i ≤ 226 → wordAt (twist c v) i = wordAt v (i + 397) ^^^ mix c (wordAt v i) (wordAt v (i + 1))) ∧
    (∀ i, 227 ≤ i → i ≤ 622 →
      wordAt (twist c v) i = wordAt (twist c v) (i - 227) ^^^ mix c (wordAt v i) (wordAt v (i + 1))) ∧
    wordAt (twist c v) 623 = wordAt (twist c v) 396 ^^^ mix c (wordAt v 623) (wordAt (twist c v) 0)

/-- The stream law: a window of a raw stream, twisted, is the next window of it (R103). -/
def Obligations.TwistAdvancesTheWindow : Prop :=
  ∀ (c : Config) (x : Nat → Word) (j : Nat) (v : WordVec),
    IsStreamFrom c x j → Window x j v → Window x (j + 624) (twist c v)

/-- SEED completes on every engine of the block, whatever its life: the engine becomes ADVANCING at cursor 0 with the
twisted SeedFill of DATA, and nothing else changes (R104). -/
def Obligations.SeedFillsAndTwists : Prop :=
  ∀ (s : State) (e : BitVec 4), e.toNat < s.numEngines →
    exec (.seed e) s =
      .next { s with
        engines := s.engines.set e.toNat
          { life := .advancing, cur := 0, mt := twist s.config (seedFill s.config s.operand) } }

/-- NEXT completes on every ADVANCING engine: at cursor 624 it twists first and gives word 0, else it gives the word at
the cursor; RESULT is that word tempered and the cursor one further (R105). -/
def Obligations.NextGivesTheWordAtTheCursor : Prop :=
  ∀ (s : State) (e : BitVec 4) (g : Engine), s.engine? e = some g → g.life = .advancing →
    exec (.next e) s = .next
      (if h : g.cur.val < 624 then
        { s with
          engines := s.engines.set e.toNat { g with cur := ⟨g.cur.val + 1, by omega⟩ }
          result  := temper s.config (wordAt g.mt g.cur.val) }
      else
        { s with
          engines := s.engines.set e.toNat { g with cur := 1, mt := twist s.config g.mt }
          result  := temper s.config (wordAt (twist s.config g.mt) 0) })

/-- INJECT completes on every engine of the block, whatever its life, when BCNT = 624: the engine becomes ADVANCING at
cursor 624 with the buffer's words, BCNT becomes 0, and nothing else changes (R106). -/
def Obligations.InjectReplacesTheEngine : Prop :=
  ∀ (s : State) (e : BitVec 4), e.toNat < s.numEngines → s.bcnt.val = 624 →
    exec (.inject e) s =
      .next { s with
        engines := s.engines.set e.toNat { life := .advancing, cur := full, mt := s.buf }
        bcnt    := 0 }

/-- After INJECT the first NEXT on that engine twists before emitting: it gives the first word of the twisted vector
(R189). -/
def Obligations.FirstOutputAfterInjectTwists : Prop :=
  ∀ (s : State) (e : BitVec 4), e.toNat < s.numEngines → s.bcnt.val = 624 →
    (s.after (.inject e)).output e 0 = temper s.config (wordAt (twist s.config s.buf) 0)

/-- An injected all-zero vector is accepted, and every later output is 0 (R106's corner case, I16). -/
def Obligations.ZeroVectorGivesZeroOutputs : Prop :=
  ∀ (s : State) (e : BitVec 4) (n : Nat), e.toNat < s.numEngines → s.bcnt.val = 624 →
    (∀ j, j < 624 → wordAt s.buf j = 0) → (s.after (.inject e)).output e n = 0

/-- Position: every ADVANCING engine denotes a raw stream and a position in it; NEXT gives the tempered word there and
moves on by one; SEED and INJECT start a stream at position 624 (R107). -/
def Obligations.EnginesDenotePositionsOfStreams : Prop :=
  (∀ (c : Config) (g : Engine), g.life = .advancing → ∃ x p, g.AtPosition c x p) ∧
  (∀ (s : State) (e : BitVec 4) (g : Engine) (x : Nat → Word) (p : Nat),
    s.engine? e = some g → g.AtPosition s.config x p →
    ∃ t g', exec (.next e) s = .next t ∧ t.result = temper s.config (x p) ∧
      t.engine? e = some g' ∧ g'.AtPosition s.config x (p + 1)) ∧
  (∀ (s : State) (e : BitVec 4), e.toNat < s.numEngines →
    ∃ t g x, exec (.seed e) s = .next t ∧ t.engine? e = some g ∧ Window x 0 (seedFill s.config s.operand) ∧
      IsStreamFrom s.config x 0 ∧ g.AtPosition s.config x 624) ∧
  (∀ (s : State) (e : BitVec 4), e.toNat < s.numEngines → s.bcnt.val = 624 →
    ∃ t g x, exec (.inject e) s = .next t ∧ t.engine? e = some g ∧ Window x 0 s.buf ∧
      IsStreamFrom s.config x 0 ∧ g.AtPosition s.config x 624)

/-- Eager and lazy first twist agree: an engine left at SeedFill with cursor 624 and one that SEED has twisted already
give the same next state at their first NEXT, so the same outputs for good, and at a first RECOVER from it. After any
command at all the two blocks are the same or still differ in that engine alone, which no host can read (R108). -/
def Obligations.EagerAndLazyFirstTwistAgree : Prop :=
  ∀ (s : State) (e : BitVec 4) (v : Word), e.toNat < s.numEngines →
    let eager := s.setEngine e { life := .advancing, cur := 0, mt := twist s.config (seedFill s.config v) }
    let lazy  := s.setEngine e { life := .advancing, cur := full, mt := seedFill s.config v }
    exec (.next e) eager = exec (.next e) lazy ∧
    (∀ n, eager.output e n = lazy.output e n) ∧
    (∀ d : BitVec 4, d.toNat < s.numEngines → exec (.recover d e) eager = exec (.recover d e) lazy) ∧
    (∀ (i : Instr) (t : State), exec i eager = .next t → ∃ u, exec i lazy = .next u ∧
      (u = t ∨ (t.engine? e = eager.engine? e ∧
        u = t.setEngine e { life := .advancing, cur := full, mt := seedFill s.config v })))

/-- Cadence: the k-th NEXT after SEED gives the tempered word 624 + k of the seeded stream, and finds the cursor at 624,
so twists, exactly when k is a positive multiple of 624 (R109). -/
def Obligations.CadenceAfterSeed : Prop :=
  ∀ (s : State) (e : BitVec 4), e.toNat < s.numEngines →
    ∃ x : Nat → Word, Window x 0 (seedFill s.config s.operand) ∧ IsStreamFrom s.config x 0 ∧
      ∀ k : Nat,
        (s.after (.seed e)).output e k = temper s.config (x (624 + k)) ∧
        ∃ g, ((s.after (.seed e)).afterNexts e k).engine? e = some g ∧ (g.cur.val = 624 ↔ 0 < k ∧ 624 ∣ k)

/-! Recovery (42_recovery.md) -/

/-- BUF_CLEAR completes in every state, and PUSH_RAW and PUSH_OUT wherever BCNT < 624: the word, untempered for
PUSH_OUT, goes to BUF[BCNT] and BCNT is one more; nothing else changes (R130, R131, R132). -/
def Obligations.BufferCommandsFillTheBuffer : Prop :=
  (∀ s : State, exec .bufClear s = .next { s with bcnt := 0 }) ∧
  (∀ (s : State) (h : s.bcnt.val < 624), exec .pushRaw s =
    .next { s with
      buf  := s.buf.set s.bcnt.val s.operand h
      bcnt := ⟨s.bcnt.val + 1, by omega⟩ }) ∧
  (∀ (s : State) (h : s.bcnt.val < 624), exec .pushOut s =
    .next { s with
      buf  := s.buf.set s.bcnt.val (untemper s.config s.operand) h
      bcnt := ⟨s.bcnt.val + 1, by omega⟩ })

/-- RECOVER completes whenever its source is ADVANCING and its destination is an engine of the block, source and
destination possibly the same: the destination becomes ADVANCING at cursor 624 with the captured buffer, BCNT is 0, the
source stays ADVANCING, and no other engine, no other register and neither DATA nor RESULT changes (R133). -/
def Obligations.RecoverCompletes : Prop :=
  ∀ (s : State) (d src : BitVec 4) (g : Engine), d.toNat < s.numEngines → s.engine? src = some g →
    g.life = .advancing →
    ∃ (t : State) (g' : Engine), exec (.recover d src) s = .next t ∧
      t = { s with
        engines := (s.engines.set src.toNat g').set d.toNat { life := .advancing, cur := full, mt := t.buf }
        buf     := t.buf
        bcnt    := 0 } ∧
      g'.life = .advancing

/-- The clone law at every position, aligned to a twist or not: after RECOVER the destination holds the 624 words at the
source's position with cursor 624, both engines are 624 further on the source's stream, and their n-th outputs agree for
every n (R135, R136). -/
def Obligations.RecoverClonesTheSource : Prop :=
  ∀ (s : State) (d src : BitVec 4) (g : Engine) (x : Nat → Word) (p : Nat),
    s.config.Valid → d.toNat < s.numEngines → s.engine? src = some g → g.AtPosition s.config x p →
    ∃ (t : State) (gd gs : Engine), exec (.recover d src) s = .next t ∧
      t.engine? d = some gd ∧ gd.cur = full ∧ Window x p gd.mt ∧ gd.AtPosition s.config x (p + 624) ∧
      t.engine? src = some gs ∧ gs.AtPosition s.config x (p + 624) ∧
      ∀ n : Nat, t.output d n = temper s.config (x (p + 624 + n)) ∧ t.output src n = t.output d n

/-- RECOVER is the host sequence BUF_CLEAR, 624 times NEXT and PUSH_OUT of RESULT, INJECT, but for RESULT and the DATA
the host wrote (R134). -/
def Obligations.RecoverIsItsExpansion : Prop :=
  ∀ (s : State) (d src : BitVec 4) (g : Engine), s.executing = none → d.toNat < s.numEngines →
    s.engine? src = some g → g.life = .advancing →
    ∃ (t : State) (w : Word), exec (.recover d src) s = .next t ∧
      ((s.after .bufClear).hostCapture src 624).after (.inject d) = { t with result := w, data := w }

/-- CAPTURE of 624 consecutive outputs, observed anywhere, gives the destination the source's window, so its n-th output
is the n-th one after the captured ones (R70, R135, R136). -/
def Obligations.CaptureClonesFromOutputs : Prop :=
  ∀ (s : State) (d : BitVec 4) (x y : Nat → Word) (p : Nat),
    s.config.Valid → s.executing = none → d.toNat < s.numEngines → IsStreamFrom s.config x p →
    (∀ k, k < 624 → y k = temper s.config (x (p + k))) →
    ∃ (t : State) (gd : Engine), exec (.inject d) ((s.after .bufClear).pushOutputs y 624) = .next t ∧
      t.engine? d = some gd ∧ gd.cur = full ∧ Window x p gd.mt ∧
      ∀ n : Nat, t.output d n = temper s.config (x (p + 624 + n))

/-- Incomplete capture: INJECT with BCNT < 624 faults and writes no engine, the host may go on pushing, and no command
injects a partial buffer: only SEED, NEXT and RECOVER change an engine then, and the engines that a command leaves do not
depend on the buffer's words (R139). -/
def Obligations.PartialBufferIsNeverInjected : Prop :=
  ∀ s : State, s.bcnt.val < 624 →
    (∀ e : BitVec 4, e.toNat < s.numEngines → s.halted = false → exec (.inject e) s =
      .next { s with halted := true, cause := .lenMismatch, faultCmd := encode (.inject e) }) ∧
    (∃ t, exec .pushRaw s = .next t ∧ t.bcnt.val = s.bcnt.val + 1) ∧
    (∃ t, exec .pushOut s = .next t ∧ t.bcnt.val = s.bcnt.val + 1) ∧
    (∀ (i : Instr) (t : State), exec i s = .next t →
      t.engines = s.engines ∨ (∃ e, i = .seed e) ∨ (∃ e, i = .next e) ∨ (∃ d src, i = .recover d src)) ∧
    (∀ (i : Instr) (words : WordVec) (t u : State), exec i s = .next t → exec i { s with buf := words } = .next u →
      u.engines = t.engines)

/-! Faults (60_exceptions.md) -/

/-- Precise faults: a command that raises a fault, in decoding or by a check of its own, writes HALTED, CAUSE and
FAULTCMD with its own CMD word and nothing else (R150, R158); an OVERRUN is recorded with the refused CMD word. -/
def Obligations.FaultsWriteOnlyTheRecord : Prop :=
  (∀ (s t : State) (x : Executing), runCommand x s = .next t → s.halted = false → t.halted = true →
    t = { s with halted := true, cause := t.cause, faultCmd := x.cmd } ∧
    (t.cause = .illegalCmd ∨ t.cause = .badEngine ∨ t.cause = .uninit ∨ t.cause = .lenMismatch)) ∧
  (∀ (s : State) (x : Executing) (w : Word), s.halted = false → x.refused = some w →
    s.retire x = { s with executing := none, halted := true, cause := .overrun, faultCmd := w })

/-- UNINIT: NEXT on an UNINIT engine and RECOVER from one take it; an engine is UNINIT from reset until its first SEED,
INJECT, or RECOVER as destination, and no command makes it UNINIT again (R154). -/
def Obligations.UninitEnginesFault : Prop :=
  (∀ (s : State) (e : BitVec 4) (g : Engine), s.halted = false → s.engine? e = some g → g.life = .uninit →
    exec (.next e) s = .next { s with halted := true, cause := .uninit, faultCmd := encode (.next e) }) ∧
  (∀ (s : State) (d src : BitVec 4) (g : Engine), s.halted = false → d.toNat < s.numEngines →
    s.engine? src = some g → g.life = .uninit →
    exec (.recover d src) s =
      .next { s with halted := true, cause := .uninit, faultCmd := encode (.recover d src) }) ∧
  (∀ (e : BitVec 4) (g : Engine), State.reset.engine? e = some g → g.life = .uninit) ∧
  (∀ (i : Instr) (s t : State) (k : BitVec 4) (g g' : Engine), exec i s = .next t →
    s.engine? k = some g → t.engine? k = some g' →
    (g.life = .uninit → g'.life = .advancing → i = .seed k ∨ i = .inject k ∨ ∃ src, i = .recover k src) ∧
    (g.life = .advancing → g'.life = .advancing))

/-- LEN_MISMATCH: INJECT with BCNT != 624, and PUSH_RAW and PUSH_OUT with BCNT = 624 (R155). -/
def Obligations.LengthMismatchFaults : Prop :=
  (∀ (s : State) (e : BitVec 4), s.halted = false → e.toNat < s.numEngines → s.bcnt.val ≠ 624 →
    exec (.inject e) s =
      .next { s with halted := true, cause := .lenMismatch, faultCmd := encode (.inject e) }) ∧
  (∀ s : State, s.halted = false → s.bcnt.val = 624 →
    exec .pushRaw s = .next { s with halted := true, cause := .lenMismatch, faultCmd := 0x00000004#32 } ∧
    exec .pushOut s = .next { s with halted := true, cause := .lenMismatch, faultCmd := 0x00000005#32 })

/-- OVERRUN: a CMD write while BUSY = 1 is not executed, only its word is remembered; when the executing command has
completed with all its writes the fault is recorded with that word, unless the command itself faulted, whose own fault
stays (R156). -/
def Obligations.OverrunIsRecordedAfterTheCommand : Prop :=
  (∀ (s : State) (x : Executing) (w : Word), s.executing = some x → s.halted = false → s.inReset = false →
    x.refused = none →
    hostEvent (.write 32 s.config.base w) s = .next { s with executing := some { x with refused := some w } }) ∧
  (∀ (s t : State) (x : Executing) (w : Word), s.executing = some x → completesNow x s.host = true →
    x.refused = some w → runCommand x s = .next t →
    step s = .next
      (if t.halted then { t with executing := none }
      else { t with executing := none, halted := true, cause := .overrun, faultCmd := w }))

/-- Halted: every CMD write is ignored, DATA stays writable, the registers stay readable, a command step is the identity
but for BUSY, and HALTED, CAUSE and FAULTCMD keep the first fault's values at every step but reset (R159, R161). -/
def Obligations.HaltedUntilReset : Prop :=
  (∀ (s : State) (w : Word), s.halted = true → hostEvent (.write 32 s.config.base w) s = .next s) ∧
  (∀ (s : State) (w : Word), s.halted = true →
    hostEvent (.write 32 (s.config.base + 0x04) w) s = .next { s with data := w }) ∧
  (∀ (s : State) (off : Nat), s.halted = true → off < 0x40 → off % 4 = 0 →
    ∃ v n, hostEvent (.read 32 (s.config.base + off)) s =
      .next { s with observed := s.observed ++ [v], draws := n }) ∧
  (∀ (s : State) (x : Executing), s.halted = true → s.executing = some x → completesNow x s.host = true →
    step s = .next { s with executing := none }) ∧
  (∀ s t : State, s.halted = true → step s = .next t → s.host.head? ≠ some .assertReset →
    t.halted = true ∧ t.cause = s.cause ∧ t.faultCmd = s.faultCmd)

/-- The transforms and the arithmetic never fault: TEMPER and UNTEMPER words can raise only ILLEGAL_CMD (R160). -/
def Obligations.TransformsRaiseOnlyIllegalCommand : Prop :=
  ∀ (s t : State) (x : Executing), x.cmd.toNat % 256 ∈ [0x08, 0x09] → s.halted = false →
    runCommand x s = .next t → t.halted = true → t.cause = .illegalCmd

/-- `exec` of a command that names no engine of the block takes BAD_ENGINE: the model's own completion of R153 for a
command its decoder never gives (log entry 9). -/
def Obligations.IllFormedCommandsFault : Prop :=
  ∀ (i : Instr) (s : State), i.wellFormed s.numEngines = false → s.halted = false →
    exec i s = .next { s with halted := true, cause := .badEngine, faultCmd := encode i }

/-! The register window and the sequencer (20_memory.md, 70_reset_and_hazards.md) -/

/-- STATUS: BUSY, HALTED, CAUSE and BCNT in their bits, every reserved bit 0 (R28), each cause under its own code
(R151). -/
def Obligations.StatusLayout : Prop :=
  ∀ s : State,
    s.statusWord.getLsbD 0 = s.busy ∧
    s.statusWord.getLsbD 1 = s.halted ∧
    s.statusWord.extractLsb' 2 2 = 0 ∧
    (s.statusWord.extractLsb' 4 4).toNat =
      (match s.cause with
      | .none        => 0
      | .illegalCmd  => 1
      | .badEngine   => 2
      | .uninit      => 3
      | .lenMismatch => 4
      | .overrun     => 5) ∧
    (s.statusWord.extractLsb' 8 10).toNat = s.bcnt.val ∧
    s.statusWord.extractLsb' 18 14 = 0

/-- Reads of an idle block: CMD and the reserved offsets read 0, DATA, RESULT, STATUS and FAULTCMD their values, and
nothing of the block changes (R41, R44, R45). -/
def Obligations.WindowReadsWhileIdle : Prop :=
  ∀ (s : State) (off : Nat), s.executing = none → off < 0x40 → off % 4 = 0 →
    hostEvent (.read 32 (s.config.base + off)) s =
      .next { s with
        observed := s.observed ++
          [if off = 0x04 then s.data else if off = 0x08 then s.result else if off = 0x0C then s.statusWord
            else if off = 0x10 then s.faultCmd else 0] }

/-- Reads while a command executes: STATUS gives BUSY = 1 and the fields from before the command, DATA and FAULTCMD
their values, RESULT some value, and nothing of the block changes (R46, R186). -/
def Obligations.WindowReadsWhileBusy : Prop :=
  ∀ (s : State) (x : Executing) (off : Nat), s.executing = some x → off < 0x40 → off % 4 = 0 →
    s.statusWord.getLsbD 0 = true ∧
    (off ≠ 0x08 → hostEvent (.read 32 (s.config.base + off)) s =
      .next { s with
        observed := s.observed ++
          [if off = 0x04 then s.data else if off = 0x0C then s.statusWord
            else if off = 0x10 then s.faultCmd else 0] }) ∧
    (off = 0x08 → ∃ v, hostEvent (.read 32 (s.config.base + off)) s =
      .next { s with observed := s.observed ++ [v], draws := s.draws + 1 })

/-- Writes: a CMD write submits one command with the value of DATA when BUSY = 0 and HALTED = 0, is refused when BUSY =
1, and is ignored when HALTED = 1 or under reset; a write to DATA only sets DATA; every other register ignores writes
(R44, R45, R180). That only the first refused word is kept is the model's reading (log entry 12), and that DATA can be
written under reset is its choice (log entry 11). -/
def Obligations.WindowWrites : Prop :=
  ∀ (s : State) (w : Word),
    (s.executing = none → s.halted = false → s.inReset = false →
      ∃ n, hostEvent (.write 32 s.config.base w) s =
        .next { s with
          executing := some { cmd := w, operand := s.data, wait := n, refused := none }
          draws     := s.draws + 1 }) ∧
    (∀ x, s.executing = some x → s.halted = false → s.inReset = false →
      hostEvent (.write 32 s.config.base w) s =
        .next { s with executing := some { x with refused := some (x.refused.getD w) } }) ∧
    (s.halted = true ∨ s.inReset = true → hostEvent (.write 32 s.config.base w) s = .next s) ∧
    hostEvent (.write 32 (s.config.base + 0x04) w) s = .next { s with data := w } ∧
    (∀ off, 0x08 ≤ off → off < 0x40 → off % 4 = 0 →
      hostEvent (.write 32 (s.config.base + off) w) s = .next s)

/-- An access of another width, misaligned, or outside the window has no step: it stops with a fault of its own name
(R42). -/
def Obligations.AccessesNotAdmitted : Prop :=
  ∀ (s : State) (width addr : Nat) (w : Word),
    (width ≠ 32 ∨ addr < s.config.base ∨ s.config.base + 0x40 ≤ addr ∨ (addr - s.config.base) % 4 ≠ 0) →
    hostEvent (.read width addr) s = .fault .accessNotAdmitted ∧
    hostEvent (.write width addr w) s = .fault .accessNotAdmitted

/-- A step runs the decoded command: when the executing command of a running block completes and its CMD word decodes to
`i`, the step is `exec i` at this state, its operand the latched DATA; the step then returns BUSY to 0 and records a
refused CMD write (R11, R156, R185). That a command completes when its free number of accesses has come, or when the
host sends nothing or waits, is the model's form of an open latency (log entry 5). -/
def Obligations.StepRunsTheDecodedCommand : Prop :=
  ∀ (s : State) (x : Executing) (i : Instr), s.executing = some x → s.halted = false →
    (x.wait = 0 ∨ s.host = [] ∨ s.host.head? = some .awaitIdle) → decode s.numEngines x.cmd = .ok i →
    s.operand = x.operand ∧
    ∃ t, exec i s = .next t ∧
      step s = .next
        (match x.refused with
        | none   => { t with executing := none }
        | some w =>
          if t.halted then { t with executing := none }
          else { t with executing := none, halted := true, cause := .overrun, faultCmd := w })

/-- A step of a command whose CMD word does not decode takes the decoding fault, with that CMD word (R65, R158); when it
completes is the model's form of an open latency (log entry 5). -/
def Obligations.StepTakesTheDecodingFault : Prop :=
  ∀ (s : State) (x : Executing) (c : Cause), s.executing = some x → s.halted = false →
    (x.wait = 0 ∨ s.host = [] ∨ s.host.head? = some .awaitIdle) → decode s.numEngines x.cmd = .error c →
    step s = .next { s with executing := none, halted := true, cause := c, faultCmd := x.cmd }

/-- Every other step takes the host's next event, the executing command's wait one shorter if there is one; with no
event the idle block keeps all state (R12, R48, R168). The wait is the model's form of an open latency (log entry 5). -/
def Obligations.StepTakesTheHostsNextEvent : Prop :=
  (∀ s : State, s.executing = none → s.host = [] → step s = .next s) ∧
  (∀ (s : State) (ev : HostEvent) (rest : List HostEvent), s.executing = none → s.host = ev :: rest →
    step s = hostEvent ev { s with host := rest }) ∧
  (∀ (s : State) (x : Executing) (ev : HostEvent) (rest : List HostEvent), s.executing = some x →
    s.host = ev :: rest → ev ≠ .awaitIdle → x.wait ≠ 0 →
    step s = hostEvent ev { s with host := rest, executing := some { x with wait := x.wait - 1 } })

/-- An assembler line from an idle, running block: after its two or three host events and the command's completion the
block is as `exec` leaves it from the state with the line's DATA, the rest of the host's stream to come (R69). -/
def Obligations.AssemblerLineRunsItsCommand : Prop :=
  ∀ (s : State) (i : Instr) (v : Option Word) (rest : List HostEvent),
    s.executing = none → s.halted = false → s.inReset = false → i.wellFormed s.numEngines = true →
    s.host = asmLine s.config.base i v ++ rest →
    ∃ t, exec i { s with host := rest, data := v.getD s.data } = .next t ∧
      Host.Core.run Sys2Proof.core (if v.isSome then 4 else 3) s = .next { t with draws := s.draws + 1 }

/-- Every accepted command finishes: within its wait and one more step BUSY is 0, if the host's accesses are admitted
(R191). The bound is the model's own (log entry 5). -/
def Obligations.AcceptedCommandsFinish : Prop :=
  ∀ (s : State) (x : Executing), s.executing = some x →
    (∀ ev ∈ s.host, ∀ width addr w, ev = .read width addr ∨ ev = .write width addr w →
      (admitted s.config.base width addr).isSome = true) →
    ∃ k t, k ≤ x.wait + 1 ∧ Host.Core.run Sys2Proof.core k s = .next t ∧ t.executing = none

/-! Reset (10_state.md, 70_reset_and_hazards.md) -/

/-- The reset values the spec gives, and the defaults of the block: two engines (R8) and the standard values of R6's
table, which are a legal configuration (R7, R31). -/
def Obligations.ResetValues : Prop :=
  State.reset.numEngines = 2 ∧
  (∀ (e : BitVec 4) (g : Engine), State.reset.engine? e = some g → g.life = .uninit) ∧
  State.reset.bcnt = 0 ∧ State.reset.data = 0 ∧ State.reset.result = 0 ∧ State.reset.busy = false ∧
  State.reset.halted = false ∧ State.reset.cause = .none ∧ State.reset.faultCmd = 0 ∧
  State.reset.statusWord = 0 ∧ State.reset.config.Valid ∧
  State.reset.config.seedMult = 1812433253#32 ∧ State.reset.config.twistMix = 0x9908B0DF#32 ∧
  State.reset.config.upperMask = 0x80000000#32 ∧ State.reset.config.lowerMask = 0x7FFFFFFF#32 ∧
  State.reset.config.step1 = { shift := 11, mask := 0xFFFFFFFF#32 } ∧
  State.reset.config.step2 = { shift := 7, mask := 0x9D2C5680#32 } ∧
  State.reset.config.step3 = { shift := 15, mask := 0xEFC60000#32 } ∧
  State.reset.config.step4 = { shift := 18, mask := 0xFFFFFFFF#32 }

/-- Asserting reset, while a command executes or not, aborts the command with none of its writes and puts every piece of
state in its reset value; while it is asserted no CMD write is accepted; the configuration stays (R180, R181). Reset as
a level that a second event releases is the model's form (log entry 11). -/
def Obligations.ResetAbortsAndReinitialises : Prop :=
  ∀ s : State, ∃ t : State, hostEvent .assertReset s = .next t ∧
    t.numEngines = s.numEngines ∧ t.config = s.config ∧
    (∀ (e : BitVec 4) (g : Engine), t.engine? e = some g → g.life = .uninit) ∧
    t.bcnt = 0 ∧ t.data = 0 ∧ t.result = 0 ∧ t.faultCmd = 0 ∧ t.executing = none ∧ t.halted = false ∧
    t.cause = .none ∧ t.statusWord = 0 ∧
    (∀ w : Word, hostEvent (.write 32 t.config.base w) t = .next t) ∧
    hostEvent .releaseReset t = .next { t with inReset := false }

/-- The algorithm constants and NUM_ENGINES are not reset and cannot change: no step changes them (R181). -/
def Obligations.ConfigurationNeverChanges : Prop :=
  ∀ s t : State, step s = .next t → t.config = s.config ∧ t.numEngines = s.numEngines

/-- The invariant holds at reset. -/
def Obligations.InvariantAtReset : Prop := State.reset.Inv

/-- Every step from a state that meets the invariant gives a state that meets it (R7, R8, R28, R30, R158, R159). -/
def Obligations.StepKeepsTheInvariant : Prop :=
  ∀ s t : State, s.Inv → step s = .next t → t.Inv

/-! The whole machine -/

/-- No command stops the machine: every command answers a next state from every state. For a command that names no
engine of the block that is the model's choice (log entry 9). -/
def Obligations.EveryCommandAnswersANextState : Prop :=
  ∀ (i : Instr) (s : State), ∃ t, exec i s = .next t

/-- No command writes the state of an engine it does not name, and none reads it: replacing such an engine beforehand or
afterwards is the same (R20, R110). -/
def Obligations.UnnamedEnginesAreUntouched : Prop :=
  ∀ (i : Instr) (s t : State) (k : BitVec 4), k ∉ i.engines → exec i s = .next t →
    t.numEngines = s.numEngines ∧ t.engine? k = s.engine? k ∧
    ∀ g : Engine, exec i (s.setEngine k g) = .next (t.setEngine k g)

/-- No command reads MT[e] or CUR[e] while LIFE[e] = UNINIT, or BUF[j] for j >= BCNT: two states that differ in nothing
else step alike, to states that differ in nothing else, and the host observes the same (R32, R33). That both draw the
same free values, for a RESULT read while BUSY = 1 and for a command's wait, is the model's choice (log entries 4, 5). -/
def Obligations.ValuesNeverWrittenAreNeverRead : Prop :=
  ∀ s t : State, s.SameValues t → SameOutcome (step s) (step t)

/-- What no command writes: the configuration, DATA, the sequencer's latch, the reset input and the model's record of
the host (R27, R181). -/
def Obligations.FrameOfEveryCommand : Prop :=
  ∀ (i : Instr) (s t : State), exec i s = .next t →
    t.config = s.config ∧ t.data = s.data ∧ t.executing = s.executing ∧ t.inReset = s.inReset ∧
    t.host = s.host ∧ t.observed = s.observed ∧ t.draws = s.draws

/-- Frame of the engine commands, faulting or not: SEED writes its engine, NEXT its engine and RESULT, INJECT its engine
and BCNT; BUF, every other engine and every other register stay, and so does the fault record where the command has its
own effect (R104, R105, R106). -/
def Obligations.FrameOfTheEngineCommands : Prop :=
  ∀ (s t : State) (e : BitVec 4),
    (exec (.seed e) s = .next t →
      t.buf = s.buf ∧ t.bcnt = s.bcnt ∧ t.result = s.result ∧ (∀ k, k ≠ e → t.engine? k = s.engine? k) ∧
      (e.toNat < s.numEngines → t.halted = s.halted ∧ t.cause = s.cause ∧ t.faultCmd = s.faultCmd)) ∧
    (exec (.next e) s = .next t →
      t.buf = s.buf ∧ t.bcnt = s.bcnt ∧ (∀ k, k ≠ e → t.engine? k = s.engine? k) ∧
      (∀ g, s.engine? e = some g → g.life = .advancing →
        t.halted = s.halted ∧ t.cause = s.cause ∧ t.faultCmd = s.faultCmd)) ∧
    (exec (.inject e) s = .next t →
      t.buf = s.buf ∧ t.result = s.result ∧ (∀ k, k ≠ e → t.engine? k = s.engine? k) ∧
      (e.toNat < s.numEngines → s.bcnt.val = 624 →
        t.halted = s.halted ∧ t.cause = s.cause ∧ t.faultCmd = s.faultCmd))

/-- Frame of the buffer commands, faulting or not: every engine and RESULT stay, every buffer word but BUF[BCNT] stays,
and BUF_CLEAR keeps them all (R130, R131, R132). -/
def Obligations.FrameOfTheBufferCommands : Prop :=
  ∀ s t : State,
    (exec .bufClear s = .next t → t = { s with bcnt := t.bcnt }) ∧
    (exec .pushRaw s = .next t ∨ exec .pushOut s = .next t →
      t = { s with buf := t.buf, bcnt := t.bcnt, halted := t.halted, cause := t.cause, faultCmd := t.faultCmd } ∧
      (∀ j, j < 624 → j ≠ s.bcnt.val → wordAt t.buf j = wordAt s.buf j) ∧
      (s.bcnt.val < 624 → t.halted = s.halted ∧ t.cause = s.cause ∧ t.faultCmd = s.faultCmd))

/-- BCNT is written only by BUF_CLEAR (to 0), PUSH_RAW and PUSH_OUT (to BCNT + 1, never past 624), INJECT (to 0 on
success) and RECOVER (to 0 at its end) (R25); RESULT only by NEXT, TEMPER and UNTEMPER (R29). -/
def Obligations.WritersOfCountAndResult : Prop :=
  ∀ (i : Instr) (s t : State), exec i s = .next t →
    (t.bcnt = s.bcnt ∨
      ((i = .bufClear ∨ (∃ e, i = .inject e ∧ s.bcnt.val = 624) ∨ ∃ d src, i = .recover d src) ∧ t.bcnt = 0) ∨
      ((i = .pushRaw ∨ i = .pushOut) ∧ t.bcnt.val = s.bcnt.val + 1)) ∧
    (t.result = s.result ∨ (∃ e, i = .next e) ∨ i = .temper ∨ i = .untemper) ∧
    (s.halted = false → t.halted = true → t.bcnt = s.bcnt ∧ t.result = s.result)

/-- A state vector is never partially mutated: after a command every engine's vector is its old one, its old one
twisted (by NEXT on it or RECOVER from it), the twisted SeedFill (by SEED of it), or the buffer (by INJECT or RECOVER
into it) (R21). -/
def Obligations.StateVectorsAreReplacedWhole : Prop :=
  ∀ (i : Instr) (s t : State) (k : BitVec 4) (g g' : Engine), exec i s = .next t →
    s.engine? k = some g → t.engine? k = some g' →
    g'.mt = g.mt ∨
    ((i = .next k ∨ ∃ d, i = .recover d k) ∧ g'.mt = twist s.config g.mt) ∨
    (i = .seed k ∧ g'.mt = twist s.config (seedFill s.config s.operand)) ∨
    (i = .inject k ∧ g'.mt = s.buf) ∨
    (∃ src, i = .recover k src ∧ g'.mt = t.buf)
end

