-- ==== Sys2Proof/Laws/State.lean ====
section
/-! SUPPORT. What each named operation leaves in each field of the state: one lemma per field per update. -/

namespace Sys2Proof.Machine

/-! `State.setEngine` -/

@[simp] theorem State.setEngine_config (s : State) (e : BitVec 4) (g : Engine) : (s.setEngine e g).config = s.config := rfl
@[simp] theorem State.setEngine_engines (s : State) (e : BitVec 4) (g : Engine) : (s.setEngine e g).engines = s.engines.set e.toNat g := rfl
@[simp] theorem State.setEngine_buf (s : State) (e : BitVec 4) (g : Engine) : (s.setEngine e g).buf = s.buf := rfl
@[simp] theorem State.setEngine_bcnt (s : State) (e : BitVec 4) (g : Engine) : (s.setEngine e g).bcnt = s.bcnt := rfl
@[simp] theorem State.setEngine_data (s : State) (e : BitVec 4) (g : Engine) : (s.setEngine e g).data = s.data := rfl
@[simp] theorem State.setEngine_result (s : State) (e : BitVec 4) (g : Engine) : (s.setEngine e g).result = s.result := rfl
@[simp] theorem State.setEngine_halted (s : State) (e : BitVec 4) (g : Engine) : (s.setEngine e g).halted = s.halted := rfl
@[simp] theorem State.setEngine_cause (s : State) (e : BitVec 4) (g : Engine) : (s.setEngine e g).cause = s.cause := rfl
@[simp] theorem State.setEngine_faultCmd (s : State) (e : BitVec 4) (g : Engine) : (s.setEngine e g).faultCmd = s.faultCmd := rfl
@[simp] theorem State.setEngine_executing (s : State) (e : BitVec 4) (g : Engine) : (s.setEngine e g).executing = s.executing := rfl
@[simp] theorem State.setEngine_inReset (s : State) (e : BitVec 4) (g : Engine) : (s.setEngine e g).inReset = s.inReset := rfl
@[simp] theorem State.setEngine_host (s : State) (e : BitVec 4) (g : Engine) : (s.setEngine e g).host = s.host := rfl
@[simp] theorem State.setEngine_observed (s : State) (e : BitVec 4) (g : Engine) : (s.setEngine e g).observed = s.observed := rfl
@[simp] theorem State.setEngine_draws (s : State) (e : BitVec 4) (g : Engine) : (s.setEngine e g).draws = s.draws := rfl

/-! `State.setResult` -/

@[simp] theorem State.setResult_config (s : State) (w : Word) : (s.setResult w).config = s.config := rfl
@[simp] theorem State.setResult_engines (s : State) (w : Word) : (s.setResult w).engines = s.engines := rfl
@[simp] theorem State.setResult_buf (s : State) (w : Word) : (s.setResult w).buf = s.buf := rfl
@[simp] theorem State.setResult_bcnt (s : State) (w : Word) : (s.setResult w).bcnt = s.bcnt := rfl
@[simp] theorem State.setResult_data (s : State) (w : Word) : (s.setResult w).data = s.data := rfl
@[simp] theorem State.setResult_result (s : State) (w : Word) : (s.setResult w).result = w := rfl
@[simp] theorem State.setResult_halted (s : State) (w : Word) : (s.setResult w).halted = s.halted := rfl
@[simp] theorem State.setResult_cause (s : State) (w : Word) : (s.setResult w).cause = s.cause := rfl
@[simp] theorem State.setResult_faultCmd (s : State) (w : Word) : (s.setResult w).faultCmd = s.faultCmd := rfl
@[simp] theorem State.setResult_executing (s : State) (w : Word) : (s.setResult w).executing = s.executing := rfl
@[simp] theorem State.setResult_inReset (s : State) (w : Word) : (s.setResult w).inReset = s.inReset := rfl
@[simp] theorem State.setResult_host (s : State) (w : Word) : (s.setResult w).host = s.host := rfl
@[simp] theorem State.setResult_observed (s : State) (w : Word) : (s.setResult w).observed = s.observed := rfl
@[simp] theorem State.setResult_draws (s : State) (w : Word) : (s.setResult w).draws = s.draws := rfl

/-! `State.clearBuffer` -/

@[simp] theorem State.clearBuffer_config (s : State) : s.clearBuffer.config = s.config := rfl
@[simp] theorem State.clearBuffer_engines (s : State) : s.clearBuffer.engines = s.engines := rfl
@[simp] theorem State.clearBuffer_buf (s : State) : s.clearBuffer.buf = s.buf := rfl
@[simp] theorem State.clearBuffer_bcnt (s : State) : s.clearBuffer.bcnt = 0 := rfl
@[simp] theorem State.clearBuffer_data (s : State) : s.clearBuffer.data = s.data := rfl
@[simp] theorem State.clearBuffer_result (s : State) : s.clearBuffer.result = s.result := rfl
@[simp] theorem State.clearBuffer_halted (s : State) : s.clearBuffer.halted = s.halted := rfl
@[simp] theorem State.clearBuffer_cause (s : State) : s.clearBuffer.cause = s.cause := rfl
@[simp] theorem State.clearBuffer_faultCmd (s : State) : s.clearBuffer.faultCmd = s.faultCmd := rfl
@[simp] theorem State.clearBuffer_executing (s : State) : s.clearBuffer.executing = s.executing := rfl
@[simp] theorem State.clearBuffer_inReset (s : State) : s.clearBuffer.inReset = s.inReset := rfl
@[simp] theorem State.clearBuffer_host (s : State) : s.clearBuffer.host = s.host := rfl
@[simp] theorem State.clearBuffer_observed (s : State) : s.clearBuffer.observed = s.observed := rfl
@[simp] theorem State.clearBuffer_draws (s : State) : s.clearBuffer.draws = s.draws := rfl

/-! `State.pushWord` -/

@[simp] theorem State.pushWord_config (s : State) (w : Word) : (s.pushWord w).config = s.config := rfl
@[simp] theorem State.pushWord_engines (s : State) (w : Word) : (s.pushWord w).engines = s.engines := rfl
@[simp] theorem State.pushWord_buf (s : State) (w : Word) : (s.pushWord w).buf = setWord s.buf s.bcnt.val w := rfl
@[simp] theorem State.pushWord_bcnt (s : State) (w : Word) : (s.pushWord w).bcnt = countUp s.bcnt := rfl
@[simp] theorem State.pushWord_data (s : State) (w : Word) : (s.pushWord w).data = s.data := rfl
@[simp] theorem State.pushWord_result (s : State) (w : Word) : (s.pushWord w).result = s.result := rfl
@[simp] theorem State.pushWord_halted (s : State) (w : Word) : (s.pushWord w).halted = s.halted := rfl
@[simp] theorem State.pushWord_cause (s : State) (w : Word) : (s.pushWord w).cause = s.cause := rfl
@[simp] theorem State.pushWord_faultCmd (s : State) (w : Word) : (s.pushWord w).faultCmd = s.faultCmd := rfl
@[simp] theorem State.pushWord_executing (s : State) (w : Word) : (s.pushWord w).executing = s.executing := rfl
@[simp] theorem State.pushWord_inReset (s : State) (w : Word) : (s.pushWord w).inReset = s.inReset := rfl
@[simp] theorem State.pushWord_host (s : State) (w : Word) : (s.pushWord w).host = s.host := rfl
@[simp] theorem State.pushWord_observed (s : State) (w : Word) : (s.pushWord w).observed = s.observed := rfl
@[simp] theorem State.pushWord_draws (s : State) (w : Word) : (s.pushWord w).draws = s.draws := rfl

/-! `State.setBuffer` -/

@[simp] theorem State.setBuffer_config (s : State) (b : WordVec) (n : Count) : (s.setBuffer b n).config = s.config := rfl
@[simp] theorem State.setBuffer_engines (s : State) (b : WordVec) (n : Count) : (s.setBuffer b n).engines = s.engines := rfl
@[simp] theorem State.setBuffer_buf (s : State) (b : WordVec) (n : Count) : (s.setBuffer b n).buf = b := rfl
@[simp] theorem State.setBuffer_bcnt (s : State) (b : WordVec) (n : Count) : (s.setBuffer b n).bcnt = n := rfl
@[simp] theorem State.setBuffer_data (s : State) (b : WordVec) (n : Count) : (s.setBuffer b n).data = s.data := rfl
@[simp] theorem State.setBuffer_result (s : State) (b : WordVec) (n : Count) : (s.setBuffer b n).result = s.result := rfl
@[simp] theorem State.setBuffer_halted (s : State) (b : WordVec) (n : Count) : (s.setBuffer b n).halted = s.halted := rfl
@[simp] theorem State.setBuffer_cause (s : State) (b : WordVec) (n : Count) : (s.setBuffer b n).cause = s.cause := rfl
@[simp] theorem State.setBuffer_faultCmd (s : State) (b : WordVec) (n : Count) : (s.setBuffer b n).faultCmd = s.faultCmd := rfl
@[simp] theorem State.setBuffer_executing (s : State) (b : WordVec) (n : Count) : (s.setBuffer b n).executing = s.executing := rfl
@[simp] theorem State.setBuffer_inReset (s : State) (b : WordVec) (n : Count) : (s.setBuffer b n).inReset = s.inReset := rfl
@[simp] theorem State.setBuffer_host (s : State) (b : WordVec) (n : Count) : (s.setBuffer b n).host = s.host := rfl
@[simp] theorem State.setBuffer_observed (s : State) (b : WordVec) (n : Count) : (s.setBuffer b n).observed = s.observed := rfl
@[simp] theorem State.setBuffer_draws (s : State) (b : WordVec) (n : Count) : (s.setBuffer b n).draws = s.draws := rfl

/-! `State.passAccess` -/

@[simp] theorem State.passAccess_config (s : State) (x : Executing) : (s.passAccess x).config = s.config := rfl
@[simp] theorem State.passAccess_engines (s : State) (x : Executing) : (s.passAccess x).engines = s.engines := rfl
@[simp] theorem State.passAccess_buf (s : State) (x : Executing) : (s.passAccess x).buf = s.buf := rfl
@[simp] theorem State.passAccess_bcnt (s : State) (x : Executing) : (s.passAccess x).bcnt = s.bcnt := rfl
@[simp] theorem State.passAccess_data (s : State) (x : Executing) : (s.passAccess x).data = s.data := rfl
@[simp] theorem State.passAccess_result (s : State) (x : Executing) : (s.passAccess x).result = s.result := rfl
@[simp] theorem State.passAccess_halted (s : State) (x : Executing) : (s.passAccess x).halted = s.halted := rfl
@[simp] theorem State.passAccess_cause (s : State) (x : Executing) : (s.passAccess x).cause = s.cause := rfl
@[simp] theorem State.passAccess_faultCmd (s : State) (x : Executing) : (s.passAccess x).faultCmd = s.faultCmd := rfl
@[simp] theorem State.passAccess_executing (s : State) (x : Executing) : (s.passAccess x).executing = some { x with wait := x.wait - 1 } := rfl
@[simp] theorem State.passAccess_inReset (s : State) (x : Executing) : (s.passAccess x).inReset = s.inReset := rfl
@[simp] theorem State.passAccess_host (s : State) (x : Executing) : (s.passAccess x).host = s.host := rfl
@[simp] theorem State.passAccess_observed (s : State) (x : Executing) : (s.passAccess x).observed = s.observed := rfl
@[simp] theorem State.passAccess_draws (s : State) (x : Executing) : (s.passAccess x).draws = s.draws := rfl

/-! `State.placeCommand` -/

@[simp] theorem State.placeCommand_config (s : State) (w : Word) : (s.placeCommand w).config = s.config := rfl
@[simp] theorem State.placeCommand_engines (s : State) (w : Word) : (s.placeCommand w).engines = s.engines := rfl
@[simp] theorem State.placeCommand_buf (s : State) (w : Word) : (s.placeCommand w).buf = s.buf := rfl
@[simp] theorem State.placeCommand_bcnt (s : State) (w : Word) : (s.placeCommand w).bcnt = s.bcnt := rfl
@[simp] theorem State.placeCommand_data (s : State) (w : Word) : (s.placeCommand w).data = s.data := rfl
@[simp] theorem State.placeCommand_result (s : State) (w : Word) : (s.placeCommand w).result = s.result := rfl
@[simp] theorem State.placeCommand_halted (s : State) (w : Word) : (s.placeCommand w).halted = s.halted := rfl
@[simp] theorem State.placeCommand_cause (s : State) (w : Word) : (s.placeCommand w).cause = s.cause := rfl
@[simp] theorem State.placeCommand_faultCmd (s : State) (w : Word) : (s.placeCommand w).faultCmd = s.faultCmd := rfl
@[simp] theorem State.placeCommand_executing (s : State) (w : Word) :
    (s.placeCommand w).executing = some { cmd := w, operand := s.data, wait := 0, refused := none } := rfl
@[simp] theorem State.placeCommand_inReset (s : State) (w : Word) : (s.placeCommand w).inReset = s.inReset := rfl
@[simp] theorem State.placeCommand_host (s : State) (w : Word) : (s.placeCommand w).host = s.host := rfl
@[simp] theorem State.placeCommand_observed (s : State) (w : Word) : (s.placeCommand w).observed = s.observed := rfl
@[simp] theorem State.placeCommand_draws (s : State) (w : Word) : (s.placeCommand w).draws = s.draws := rfl

/-! `State.hostRead` -/

@[simp] theorem State.hostRead_config (s : State) (r : WindowReg) : (s.hostRead r).config = s.config := rfl
@[simp] theorem State.hostRead_engines (s : State) (r : WindowReg) : (s.hostRead r).engines = s.engines := rfl
@[simp] theorem State.hostRead_buf (s : State) (r : WindowReg) : (s.hostRead r).buf = s.buf := rfl
@[simp] theorem State.hostRead_bcnt (s : State) (r : WindowReg) : (s.hostRead r).bcnt = s.bcnt := rfl
@[simp] theorem State.hostRead_data (s : State) (r : WindowReg) : (s.hostRead r).data = s.data := rfl
@[simp] theorem State.hostRead_result (s : State) (r : WindowReg) : (s.hostRead r).result = s.result := rfl
@[simp] theorem State.hostRead_halted (s : State) (r : WindowReg) : (s.hostRead r).halted = s.halted := rfl
@[simp] theorem State.hostRead_cause (s : State) (r : WindowReg) : (s.hostRead r).cause = s.cause := rfl
@[simp] theorem State.hostRead_faultCmd (s : State) (r : WindowReg) : (s.hostRead r).faultCmd = s.faultCmd := rfl
@[simp] theorem State.hostRead_executing (s : State) (r : WindowReg) : (s.hostRead r).executing = s.executing := rfl
@[simp] theorem State.hostRead_inReset (s : State) (r : WindowReg) : (s.hostRead r).inReset = s.inReset := rfl
@[simp] theorem State.hostRead_host (s : State) (r : WindowReg) : (s.hostRead r).host = s.host := rfl
@[simp] theorem State.hostRead_observed (s : State) (r : WindowReg) : (s.hostRead r).observed = s.observed ++ [s.readReg r] := rfl
@[simp] theorem State.hostRead_draws (s : State) (r : WindowReg) :
    (s.hostRead r).draws = if r = .result ∧ s.busy then s.draws + 1 else s.draws := rfl

/-! `State.raiseFault`: fault entry writes HALTED, CAUSE and FAULTCMD, and those only once (R158, R159). -/

@[simp] theorem State.raiseFault_config (s : State) (c : Cause) (w : Word) : (s.raiseFault c w).config = s.config := by
  unfold State.raiseFault; split <;> rfl
@[simp] theorem State.raiseFault_engines (s : State) (c : Cause) (w : Word) : (s.raiseFault c w).engines = s.engines := by
  unfold State.raiseFault; split <;> rfl
@[simp] theorem State.raiseFault_buf (s : State) (c : Cause) (w : Word) : (s.raiseFault c w).buf = s.buf := by
  unfold State.raiseFault; split <;> rfl
@[simp] theorem State.raiseFault_bcnt (s : State) (c : Cause) (w : Word) : (s.raiseFault c w).bcnt = s.bcnt := by
  unfold State.raiseFault; split <;> rfl
@[simp] theorem State.raiseFault_data (s : State) (c : Cause) (w : Word) : (s.raiseFault c w).data = s.data := by
  unfold State.raiseFault; split <;> rfl
@[simp] theorem State.raiseFault_result (s : State) (c : Cause) (w : Word) : (s.raiseFault c w).result = s.result := by
  unfold State.raiseFault; split <;> rfl
@[simp] theorem State.raiseFault_executing (s : State) (c : Cause) (w : Word) : (s.raiseFault c w).executing = s.executing := by
  unfold State.raiseFault; split <;> rfl
@[simp] theorem State.raiseFault_inReset (s : State) (c : Cause) (w : Word) : (s.raiseFault c w).inReset = s.inReset := by
  unfold State.raiseFault; split <;> rfl
@[simp] theorem State.raiseFault_host (s : State) (c : Cause) (w : Word) : (s.raiseFault c w).host = s.host := by
  unfold State.raiseFault; split <;> rfl
@[simp] theorem State.raiseFault_observed (s : State) (c : Cause) (w : Word) : (s.raiseFault c w).observed = s.observed := by
  unfold State.raiseFault; split <;> rfl
@[simp] theorem State.raiseFault_draws (s : State) (c : Cause) (w : Word) : (s.raiseFault c w).draws = s.draws := by
  unfold State.raiseFault; split <;> rfl
@[simp] theorem State.raiseFault_halted (s : State) (c : Cause) (w : Word) : (s.raiseFault c w).halted = true := by
  unfold State.raiseFault; split <;> simp_all
@[simp] theorem State.raiseFault_cause (s : State) (c : Cause) (w : Word) :
    (s.raiseFault c w).cause = if s.halted then s.cause else c := by
  unfold State.raiseFault; split <;> rfl
@[simp] theorem State.raiseFault_faultCmd (s : State) (c : Cause) (w : Word) :
    (s.raiseFault c w).faultCmd = if s.halted then s.faultCmd else w := by
  unfold State.raiseFault; split <;> rfl

/-! `State.retire`: BUSY returns to 0, and a refused CMD write is recorded (R156, R185). -/

@[simp] theorem State.retire_config (s : State) (x : Executing) : (s.retire x).config = s.config := by
  unfold State.retire; split <;> simp
@[simp] theorem State.retire_engines (s : State) (x : Executing) : (s.retire x).engines = s.engines := by
  unfold State.retire; split <;> simp
@[simp] theorem State.retire_buf (s : State) (x : Executing) : (s.retire x).buf = s.buf := by
  unfold State.retire; split <;> simp
@[simp] theorem State.retire_bcnt (s : State) (x : Executing) : (s.retire x).bcnt = s.bcnt := by
  unfold State.retire; split <;> simp
@[simp] theorem State.retire_data (s : State) (x : Executing) : (s.retire x).data = s.data := by
  unfold State.retire; split <;> simp
@[simp] theorem State.retire_result (s : State) (x : Executing) : (s.retire x).result = s.result := by
  unfold State.retire; split <;> simp
@[simp] theorem State.retire_inReset (s : State) (x : Executing) : (s.retire x).inReset = s.inReset := by
  unfold State.retire; split <;> simp
@[simp] theorem State.retire_host (s : State) (x : Executing) : (s.retire x).host = s.host := by
  unfold State.retire; split <;> simp
@[simp] theorem State.retire_observed (s : State) (x : Executing) : (s.retire x).observed = s.observed := by
  unfold State.retire; split <;> simp
@[simp] theorem State.retire_draws (s : State) (x : Executing) : (s.retire x).draws = s.draws := by
  unfold State.retire; split <;> simp
@[simp] theorem State.retire_executing (s : State) (x : Executing) : (s.retire x).executing = none := by
  unfold State.retire; split <;> simp

/-! `State.resetBlock`: every register takes its value after reset (R180, R31). -/

@[simp] theorem State.resetBlock_config (s : State) : s.resetBlock.config = s.config := rfl
@[simp] theorem State.resetBlock_engines (s : State) : s.resetBlock.engines = (List.range s.numEngines).map Engine.reset := rfl
@[simp] theorem State.resetBlock_buf (s : State) : s.resetBlock.buf = State.reset.buf := rfl
@[simp] theorem State.resetBlock_bcnt (s : State) : s.resetBlock.bcnt = 0 := rfl
@[simp] theorem State.resetBlock_data (s : State) : s.resetBlock.data = 0 := rfl
@[simp] theorem State.resetBlock_result (s : State) : s.resetBlock.result = 0 := rfl
@[simp] theorem State.resetBlock_halted (s : State) : s.resetBlock.halted = false := rfl
@[simp] theorem State.resetBlock_cause (s : State) : s.resetBlock.cause = .none := rfl
@[simp] theorem State.resetBlock_faultCmd (s : State) : s.resetBlock.faultCmd = 0 := rfl
@[simp] theorem State.resetBlock_executing (s : State) : s.resetBlock.executing = none := rfl
@[simp] theorem State.resetBlock_inReset (s : State) : s.resetBlock.inReset = true := rfl
@[simp] theorem State.resetBlock_host (s : State) : s.resetBlock.host = s.host := rfl
@[simp] theorem State.resetBlock_observed (s : State) : s.resetBlock.observed = s.observed := rfl
@[simp] theorem State.resetBlock_draws (s : State) : s.resetBlock.draws = s.draws := rfl

/-! `State.writeCmd`: a CMD write touches the sequencer alone (R44). -/

@[simp] theorem State.writeCmd_config (s : State) (w : Word) : (s.writeCmd w).config = s.config := by
  unfold State.writeCmd; split
  · rfl
  · split <;> rfl
@[simp] theorem State.writeCmd_engines (s : State) (w : Word) : (s.writeCmd w).engines = s.engines := by
  unfold State.writeCmd; split
  · rfl
  · split <;> rfl
@[simp] theorem State.writeCmd_buf (s : State) (w : Word) : (s.writeCmd w).buf = s.buf := by
  unfold State.writeCmd; split
  · rfl
  · split <;> rfl
@[simp] theorem State.writeCmd_bcnt (s : State) (w : Word) : (s.writeCmd w).bcnt = s.bcnt := by
  unfold State.writeCmd; split
  · rfl
  · split <;> rfl
@[simp] theorem State.writeCmd_data (s : State) (w : Word) : (s.writeCmd w).data = s.data := by
  unfold State.writeCmd; split
  · rfl
  · split <;> rfl
@[simp] theorem State.writeCmd_result (s : State) (w : Word) : (s.writeCmd w).result = s.result := by
  unfold State.writeCmd; split
  · rfl
  · split <;> rfl
@[simp] theorem State.writeCmd_halted (s : State) (w : Word) : (s.writeCmd w).halted = s.halted := by
  unfold State.writeCmd; split
  · rfl
  · split <;> rfl
@[simp] theorem State.writeCmd_cause (s : State) (w : Word) : (s.writeCmd w).cause = s.cause := by
  unfold State.writeCmd; split
  · rfl
  · split <;> rfl
@[simp] theorem State.writeCmd_faultCmd (s : State) (w : Word) : (s.writeCmd w).faultCmd = s.faultCmd := by
  unfold State.writeCmd; split
  · rfl
  · split <;> rfl
@[simp] theorem State.writeCmd_inReset (s : State) (w : Word) : (s.writeCmd w).inReset = s.inReset := by
  unfold State.writeCmd; split
  · rfl
  · split <;> rfl
@[simp] theorem State.writeCmd_host (s : State) (w : Word) : (s.writeCmd w).host = s.host := by
  unfold State.writeCmd; split
  · rfl
  · split <;> rfl
@[simp] theorem State.writeCmd_observed (s : State) (w : Word) : (s.writeCmd w).observed = s.observed := by
  unfold State.writeCmd; split
  · rfl
  · split <;> rfl

end Sys2Proof.Machine
end

