-- ==== Sys2Proof/Laws/Bits.lean ====
section
/-! SUPPORT. Fields of a CMD word as numbers, single bits of a word, and the words the twist's loop leaves. -/

namespace Sys2Proof

/-! Fields of a CMD word -/

theorem opField_toNat (w : Word) : (opField w).toNat = w.toNat % 256 := by
  simp [opField, BitVec.extractLsb'_toNat]

theorem eaField_toNat (w : Word) : (eaField w).toNat = w.toNat / 256 % 16 := by
  simp [eaField, BitVec.extractLsb'_toNat, Nat.shiftRight_eq_div_pow]

theorem ebField_toNat (w : Word) : (ebField w).toNat = w.toNat / 4096 % 16 := by
  simp [ebField, BitVec.extractLsb'_toNat, Nat.shiftRight_eq_div_pow]

theorem rsvField_toNat (w : Word) : (rsvField w).toNat = w.toNat / 65536 := by
  simp [rsvField, BitVec.extractLsb'_toNat, Nat.shiftRight_eq_div_pow]; omega

namespace Machine

/-! Single bits -/

theorem getLsbD_setBit (x : Word) (i j : Nat) (b : Bool) (hj : j < 32) :
    (setBit x i b).getLsbD j = if i = j then b else x.getLsbD j := by
  unfold setBit
  by_cases h : i = j
  · subst h; cases b <;> simp [hj]
  · have h' : ¬ j = i := fun e => h e.symm
    cases b <;> simp [hj, h, h']

/-! The twist's loop -/

/-- The loop leaves the words it has not reached as they were. -/
theorem wordAt_twistLoop_of_ge (c : Config) (v : WordVec) {k i : Nat} (hi : i < 624) (hki : k ≤ i) :
    wordAt (twistLoop c v k) i = wordAt v i := by
  induction k with
  | zero => rfl
  | succ k ih =>
    simp only [twistLoop, wordAt, setWord, Vector.getElem_set]
    rw [if_neg (by omega)]
    exact ih (by omega)

/-- The loop does not write a word again once it has passed it. -/
theorem wordAt_twistLoop_of_lt (c : Config) (v : WordVec) {i k : Nat} (hk : k ≤ 624) (hi : i < k) :
    wordAt (twistLoop c v k) i = twistWord c (twistLoop c v i) i := by
  induction k with
  | zero => omega
  | succ k ih =>
    simp only [twistLoop, wordAt, setWord, Vector.getElem_set]
    by_cases h : i = k
    · subst h; rw [if_pos rfl]
    · rw [if_neg (by omega)]
      exact ih (by omega) (by omega)

theorem wordAt_twist (c : Config) (v : WordVec) {i : Nat} (hi : i < 624) :
    wordAt (twist c v) i = twistWord c (twistLoop c v i) i :=
  wordAt_twistLoop_of_lt c v (Nat.le_refl 624) hi

end Machine
end Sys2Proof
end

