-- ==== Sys2Proof/Laws/Ops.lean ====
section
/-! SUPPORT. What the shared operations do: words of a vector, counts, engines, fault entry, one draw. -/

namespace Sys2Proof.Machine

/-! Words of a vector -/

theorem wordAt_of_lt (v : WordVec) {i : Nat} (h : i < 624) : wordAt v i = v[i] := by
  simp only [wordAt, Nat.mod_eq_of_lt h]

@[simp] theorem wordAt_mod (v : WordVec) (i : Nat) : wordAt v (i % 624) = wordAt v i := by
  simp only [wordAt, Nat.mod_mod]

theorem wordAt_setWord (v : WordVec) (i j : Nat) (w : Word) :
    wordAt (setWord v i w) j = if i % 624 = j % 624 then w else wordAt v j := by
  simp only [wordAt, setWord, Vector.getElem_set]

theorem wordAt_setWord_of_lt (v : WordVec) {i j : Nat} (w : Word) (hi : i < 624) (hj : j < 624) :
    wordAt (setWord v i w) j = if i = j then w else wordAt v j := by
  rw [wordAt_setWord, Nat.mod_eq_of_lt hi, Nat.mod_eq_of_lt hj]

theorem wordVec_ext {u v : WordVec} (h : ∀ i, i < 624 → wordAt u i = wordAt v i) : u = v := by
  ext i hi : 1
  have := h i hi
  rwa [wordAt_of_lt u hi, wordAt_of_lt v hi] at this

theorem wordAt_ofFn (f : Fin 624 → Word) {i : Nat} (h : i < 624) : wordAt (Vector.ofFn f) i = f ⟨i, h⟩ := by
  rw [wordAt_of_lt _ h, Vector.getElem_ofFn]

/-! Counts -/

@[simp] theorem full_val : full.val = 624 := rfl

theorem count_eq_full {c : Count} : c = full ↔ c.val = 624 := Fin.ext_iff

theorem count_ne_full {c : Count} : c ≠ full ↔ c.val < 624 := by
  rw [ne_eq, count_eq_full]; omega

theorem countUp_val {c : Count} (h : c.val < 624) : (countUp c).val = c.val + 1 := by
  show min (c.val + 1) 624 = c.val + 1
  omega

/-! Engines -/

@[simp] theorem State.setEngine_numEngines (s : State) (e : BitVec 4) (g : Engine) :
    (s.setEngine e g).numEngines = s.numEngines := by
  simp [State.numEngines]

theorem State.engine?_isSome {s : State} {e : BitVec 4} : (s.engine? e).isSome ↔ e.toNat < s.numEngines := by
  simp [State.engine?, State.numEngines]

theorem State.engine?_eq_none {s : State} {e : BitVec 4} : s.engine? e = none ↔ s.numEngines ≤ e.toNat := by
  simp [State.engine?, State.numEngines]

theorem State.engine?_lt {s : State} {e : BitVec 4} {g : Engine} (h : s.engine? e = some g) :
    e.toNat < s.numEngines :=
  State.engine?_isSome.mp (by simp [h])

theorem State.engine?_setEngine_self {s : State} {e : BitVec 4} {g h : Engine} (he : s.engine? e = some h) :
    (s.setEngine e g).engine? e = some g := by
  have := State.engine?_lt he
  simp_all [State.engine?, State.numEngines]

theorem State.engine?_setEngine_ne {s : State} {e k : BitVec 4} {g : Engine} (hk : k ≠ e) :
    (s.setEngine e g).engine? k = s.engine? k := by
  have : e.toNat ≠ k.toNat := fun h => hk (BitVec.eq_of_toNat_eq h).symm
  simp [State.engine?, this]

theorem State.engine?_congr {s t : State} (h : t.engines = s.engines) (e : BitVec 4) : t.engine? e = s.engine? e := by
  simp [State.engine?, h]

theorem State.numEngines_congr {s t : State} (h : t.engines = s.engines) : t.numEngines = s.numEngines := by
  simp [State.numEngines, h]

theorem State.operand_congr {s t : State} (hx : t.executing = s.executing) (hd : t.data = s.data) :
    t.operand = s.operand := by
  simp [State.operand, hx, hd]

/-! Fault entry -/

theorem State.raiseFault_of_running {s : State} (h : s.halted = false) (c : Cause) (w : Word) :
    s.raiseFault c w = { s with halted := true, cause := c, faultCmd := w } := by
  simp [State.raiseFault, h]

theorem State.raiseFault_of_halted {s : State} (h : s.halted = true) (c : Cause) (w : Word) :
    s.raiseFault c w = s := by
  simp [State.raiseFault, h]

theorem State.retire_of_none (s : State) {x : Executing} (h : x.refused = none) :
    s.retire x = { s with executing := none } := by
  simp [State.retire, h]

theorem State.retire_of_some (s : State) {x : Executing} {w : Word} (h : x.refused = some w) :
    s.retire x = { s with executing := none }.raiseFault .overrun w := by
  simp [State.retire, h]

/-! One draw -/

@[simp] theorem Engine.refill_life (c : Config) (g : Engine) : (g.refill c).life = g.life := by
  unfold Engine.refill; split <;> rfl

theorem Engine.refill_of_full {c : Config} {g : Engine} (h : g.cur = full) :
    g.refill c = { g with mt := twist c g.mt, cur := 0 } := by
  simp [Engine.refill, h]

theorem Engine.refill_of_lt {c : Config} {g : Engine} (h : g.cur.val < 624) : g.refill c = g := by
  simp [Engine.refill, count_ne_full.mpr h]

theorem Engine.refill_cur_lt (c : Config) (g : Engine) : (g.refill c).cur.val < 624 := by
  by_cases h : g.cur = full
  · rw [Engine.refill_of_full h]; exact Nat.zero_lt_succ 623
  · rw [Engine.refill_of_lt (count_ne_full.mp h)]; exact count_ne_full.mp h

@[simp] theorem Engine.draw_life (c : Config) (g : Engine) : (g.draw c).2.life = g.life := by
  simp [Engine.draw]

theorem Engine.draw_of_lt {c : Config} {g : Engine} (h : g.cur.val < 624) :
    g.draw c = (wordAt g.mt g.cur.val, { g with cur := countUp g.cur }) := by
  simp [Engine.draw, Engine.refill_of_lt h]

theorem Engine.draw_of_full {c : Config} {g : Engine} (h : g.cur = full) :
    g.draw c = (wordAt (twist c g.mt) 0, { g with mt := twist c g.mt, cur := countUp 0 }) := by
  simp [Engine.draw, Engine.refill_of_full h]

end Sys2Proof.Machine
end

