-- ==== Sys2Proof/Laws/Exec.lean ====
section
/-! SUPPORT. What each command answers, once for each meaning: the conditions on the state under which it has its own
effect, and those under which it takes a fault. -/

namespace Sys2Proof.Machine

theorem faulting_eq (c : Cause) (i : Instr) (s : State) : faulting c i s = .next (s.raiseFault c (encode i)) := rfl

theorem execSeed_of_engine {s : State} {e : BitVec 4} {g : Engine} (h : s.engine? e = some g) :
    execSeed e s = .next (s.setEngine e (Engine.seeded s.config s.operand)) := by
  simp [execSeed, h]

theorem execSeed_of_none {s : State} {e : BitVec 4} (h : s.engine? e = none) :
    execSeed e s = faulting .badEngine (.seed e) s := by
  simp [execSeed, h]

theorem execNext_of_advancing {s : State} {e : BitVec 4} {g : Engine} (h : s.engine? e = some g)
    (hl : g.life = .advancing) :
    execNext e s =
      .next ((s.setEngine e (g.draw s.config).2).setResult (temper s.config (g.draw s.config).1)) := by
  simp [execNext, h, hl]

theorem execNext_of_uninit {s : State} {e : BitVec 4} {g : Engine} (h : s.engine? e = some g)
    (hl : g.life = .uninit) : execNext e s = faulting .uninit (.next e) s := by
  simp [execNext, h, hl]

theorem execNext_of_none {s : State} {e : BitVec 4} (h : s.engine? e = none) :
    execNext e s = faulting .badEngine (.next e) s := by
  simp [execNext, h]

theorem execInject_of_full {s : State} {e : BitVec 4} {g : Engine} (h : s.engine? e = some g) (hb : s.bcnt = full) :
    execInject e s = .next ((s.setEngine e (Engine.injected s.buf)).clearBuffer) := by
  simp [execInject, h, hb]

theorem execInject_of_short {s : State} {e : BitVec 4} {g : Engine} (h : s.engine? e = some g) (hb : s.bcnt ≠ full) :
    execInject e s = faulting .lenMismatch (.inject e) s := by
  simp [execInject, h, hb]

theorem execInject_of_none {s : State} {e : BitVec 4} (h : s.engine? e = none) :
    execInject e s = faulting .badEngine (.inject e) s := by
  simp [execInject, h]

theorem execPushRaw_of_room {s : State} (hb : s.bcnt ≠ full) : execPushRaw s = .next (s.pushWord s.operand) := by
  simp [execPushRaw, hb]

theorem execPushRaw_of_full {s : State} (hb : s.bcnt = full) : execPushRaw s = faulting .lenMismatch .pushRaw s := by
  simp [execPushRaw, hb]

theorem execPushOut_of_room {s : State} (hb : s.bcnt ≠ full) :
    execPushOut s = .next (s.pushWord (untemper s.config s.operand)) := by
  simp [execPushOut, hb]

theorem execPushOut_of_full {s : State} (hb : s.bcnt = full) : execPushOut s = faulting .lenMismatch .pushOut s := by
  simp [execPushOut, hb]

theorem execRecover_of_advancing {s : State} {d src : BitVec 4} {g h : Engine} (hd : s.engine? d = some h)
    (hs : s.engine? src = some g) (hl : g.life = .advancing) :
    execRecover d src s =
      .next (((s.setEngine src (captureLoop s.config g s.buf 624).1).setBuffer
        (captureLoop s.config g s.buf 624).2 0).setEngine d
          (Engine.injected (captureLoop s.config g s.buf 624).2)) := by
  simp [execRecover, hd, hs, hl]

theorem execRecover_of_uninit {s : State} {d src : BitVec 4} {g h : Engine} (hd : s.engine? d = some h)
    (hs : s.engine? src = some g) (hl : g.life = .uninit) :
    execRecover d src s = faulting .uninit (.recover d src) s := by
  simp [execRecover, hd, hs, hl]

theorem execRecover_of_none {s : State} {d src : BitVec 4} (h : s.engine? d = none ∨ s.engine? src = none) :
    execRecover d src s = faulting .badEngine (.recover d src) s := by
  unfold execRecover
  split
  · rename_i hd hs
    simp [hd, hs] at h
  · rfl

/-- Everything a command can do: take a fault of its own, or write the registers of its own effect. -/
theorem exec_cases (i : Instr) (s : State) :
    (∃ c, (c = .badEngine ∨ c = .uninit ∨ c = .lenMismatch) ∧ exec i s = .next (s.raiseFault c (encode i))) ∨
    (∃ e g, i = .seed e ∧ s.engine? e = some g ∧
      exec i s = .next (s.setEngine e (Engine.seeded s.config s.operand))) ∨
    (∃ e g, i = .next e ∧ s.engine? e = some g ∧ g.life = .advancing ∧
      exec i s = .next ((s.setEngine e (g.draw s.config).2).setResult (temper s.config (g.draw s.config).1))) ∨
    (i = .bufClear ∧ exec i s = .next s.clearBuffer) ∨
    (i = .pushRaw ∧ s.bcnt ≠ full ∧ exec i s = .next (s.pushWord s.operand)) ∨
    (i = .pushOut ∧ s.bcnt ≠ full ∧ exec i s = .next (s.pushWord (untemper s.config s.operand))) ∨
    (∃ e g, i = .inject e ∧ s.engine? e = some g ∧ s.bcnt = full ∧
      exec i s = .next ((s.setEngine e (Engine.injected s.buf)).clearBuffer)) ∨
    (∃ d src g h, i = .recover d src ∧ s.engine? d = some h ∧ s.engine? src = some g ∧ g.life = .advancing ∧
      exec i s = .next (((s.setEngine src (captureLoop s.config g s.buf 624).1).setBuffer
        (captureLoop s.config g s.buf 624).2 0).setEngine d
          (Engine.injected (captureLoop s.config g s.buf 624).2))) ∨
    (i = .temper ∧ exec i s = .next (s.setResult (temper s.config s.operand))) ∨
    (i = .untemper ∧ exec i s = .next (s.setResult (untemper s.config s.operand))) := by
  cases i with
  | seed e =>
    cases h : s.engine? e with
    | none => exact .inl ⟨.badEngine, by simp, execSeed_of_none h⟩
    | some g => exact .inr (.inl ⟨e, g, rfl, h, execSeed_of_engine h⟩)
  | next e =>
    cases h : s.engine? e with
    | none => exact .inl ⟨.badEngine, by simp, execNext_of_none h⟩
    | some g =>
      cases hl : g.life with
      | uninit => exact .inl ⟨.uninit, by simp, execNext_of_uninit h hl⟩
      | advancing => exact .inr (.inr (.inl ⟨e, g, rfl, h, hl, execNext_of_advancing h hl⟩))
  | bufClear => exact .inr (.inr (.inr (.inl ⟨rfl, rfl⟩)))
  | pushRaw =>
    by_cases hb : s.bcnt = full
    · exact .inl ⟨.lenMismatch, by simp, execPushRaw_of_full hb⟩
    · exact .inr (.inr (.inr (.inr (.inl ⟨rfl, hb, execPushRaw_of_room hb⟩))))
  | pushOut =>
    by_cases hb : s.bcnt = full
    · exact .inl ⟨.lenMismatch, by simp, execPushOut_of_full hb⟩
    · exact .inr (.inr (.inr (.inr (.inr (.inl ⟨rfl, hb, execPushOut_of_room hb⟩)))))
  | inject e =>
    cases h : s.engine? e with
    | none => exact .inl ⟨.badEngine, by simp, execInject_of_none h⟩
    | some g =>
      by_cases hb : s.bcnt = full
      · exact .inr (.inr (.inr (.inr (.inr (.inr (.inl ⟨e, g, rfl, h, hb, execInject_of_full h hb⟩))))))
      · exact .inl ⟨.lenMismatch, by simp, execInject_of_short h hb⟩
  | recover d src =>
    cases hd : s.engine? d with
    | none => exact .inl ⟨.badEngine, by simp, execRecover_of_none (.inl hd)⟩
    | some h =>
      cases hs : s.engine? src with
      | none => exact .inl ⟨.badEngine, by simp, execRecover_of_none (.inr hs)⟩
      | some g =>
        cases hl : g.life with
        | uninit => exact .inl ⟨.uninit, by simp, execRecover_of_uninit hd hs hl⟩
        | advancing =>
          exact .inr (.inr (.inr (.inr (.inr (.inr (.inr (.inl
            ⟨d, src, g, h, rfl, hd, hs, hl, execRecover_of_advancing hd hs hl⟩)))))))
  | temper => exact .inr (.inr (.inr (.inr (.inr (.inr (.inr (.inr (.inl ⟨rfl, rfl⟩))))))))
  | untemper => exact .inr (.inr (.inr (.inr (.inr (.inr (.inr (.inr (.inr ⟨rfl, rfl⟩))))))))

end Sys2Proof.Machine
end

