-- ==== Sys2Proof/Laws/PerInstr.lean ====
section
/-! SUPPORT. One statement for all commands, made per constructor: the encoding of a command has its reserved bits 0
(30_encoding.md R64). -/

namespace Sys2Proof.Laws

/-- RSV, bits 31:16, is 0 in the CMD word of the command (R64). -/
def ReservedBits.Statement (i : Instr) : Prop := rsvField (encode i) = 0

theorem ReservedBits.seed (e : BitVec 4) : ReservedBits.Statement (.seed e) := by
  unfold ReservedBits.Statement; revert e; decide
theorem ReservedBits.next (e : BitVec 4) : ReservedBits.Statement (.next e) := by
  unfold ReservedBits.Statement; revert e; decide
theorem ReservedBits.bufClear : ReservedBits.Statement .bufClear := by
  unfold ReservedBits.Statement; decide
theorem ReservedBits.pushRaw : ReservedBits.Statement .pushRaw := by
  unfold ReservedBits.Statement; decide
theorem ReservedBits.pushOut : ReservedBits.Statement .pushOut := by
  unfold ReservedBits.Statement; decide
theorem ReservedBits.inject (e : BitVec 4) : ReservedBits.Statement (.inject e) := by
  unfold ReservedBits.Statement; revert e; decide
theorem ReservedBits.recover (d s : BitVec 4) : ReservedBits.Statement (.recover d s) := by
  unfold ReservedBits.Statement; revert d s; decide
theorem ReservedBits.temper : ReservedBits.Statement .temper := by
  unfold ReservedBits.Statement; decide
theorem ReservedBits.untemper : ReservedBits.Statement .untemper := by
  unfold ReservedBits.Statement; decide

end Sys2Proof.Laws
end

