-- ==== Sys2Proof/Laws/Step.lean ====
section
/-! SUPPORT. What one event of the host, the completion of a command and one step can do, once for each. -/

namespace Sys2Proof.Machine

theorem admitted_register (base off : Nat) (h : off < 0x40) (ha : off % 4 = 0) :
    admitted base 32 (base + off) = some (windowReg off) := by
  have hb : base ≤ base + off := Nat.le_add_right base off
  have ho : base + off - base = off := Nat.add_sub_cancel_left base off
  simp [admitted, hb, ho, ha, h]

/-- The register an admitted access reaches depends on its offset alone. -/
theorem admitted_eq_some {base width addr : Nat} {r : WindowReg} (h : admitted base width addr = some r) :
    width = 32 ∧ ∃ off, addr = base + off ∧ off < 0x40 ∧ off % 4 = 0 ∧ r = windowReg off := by
  unfold admitted at h
  split at h
  · rename_i hc
    exact ⟨hc.1, addr - base, by omega, by omega, hc.2.2.2, by simpa using h.symm⟩
  · cases h

/-- Everything an event of the host can do when it answers a next state. -/
theorem hostEvent_cases {ev : HostEvent} {s t : State} (h : hostEvent ev s = .next t) :
    (∃ r, t = s.hostRead r) ∨ (∃ r w, t = s.hostWrite r w) ∨ (ev = .awaitIdle ∧ t = s) ∨
    (ev = .assertReset ∧ t = s.resetBlock) ∨ (ev = .releaseReset ∧ t = { s with inReset := false }) := by
  cases ev with
  | read width addr =>
    simp only [hostEvent] at h
    split at h
    · rename_i r _
      exact .inl ⟨r, by simpa using h.symm⟩
    · cases h
  | write width addr value =>
    simp only [hostEvent] at h
    split at h
    · rename_i r _
      exact .inr (.inl ⟨r, value, by simpa using h.symm⟩)
    · cases h
  | awaitIdle => exact .inr (.inr (.inl ⟨rfl, by simpa [hostEvent] using h.symm⟩))
  | assertReset => exact .inr (.inr (.inr (.inl ⟨rfl, by simpa [hostEvent] using h.symm⟩)))
  | releaseReset => exact .inr (.inr (.inr (.inr ⟨rfl, by simpa [hostEvent] using h.symm⟩)))

/-- Everything a write to the window can do. -/
theorem hostWrite_cases (s : State) (r : WindowReg) (w : Word) :
    s.hostWrite r w = s ∨ s.hostWrite r w = { s with data := w } ∨
    (s.halted = false ∧ s.inReset = false ∧ ∃ x, s.executing = some x ∧
      s.hostWrite r w = { s with executing := some { x with refused := some (x.refused.getD w) } }) ∨
    (s.halted = false ∧ s.inReset = false ∧ s.executing = none ∧
      s.hostWrite r w =
        { s with
          executing := some { cmd := w, operand := s.data, wait := Config.accessesWhileBusy s.draws, refused := none }
          draws     := s.draws + 1 }) := by
  cases r with
  | cmd =>
    cases hh : s.halted <;> cases hr : s.inReset <;> simp only [State.hostWrite, State.writeCmd, hh, hr] <;>
      try exact .inl rfl
    cases hx : s.executing with
    | none => exact .inr (.inr (.inr ⟨trivial, trivial, rfl, rfl⟩))
    | some x => exact .inr (.inr (.inl ⟨trivial, trivial, x, rfl, rfl⟩))
  | data => exact .inr (.inl rfl)
  | result => exact .inl rfl
  | status => exact .inl rfl
  | faultCmd => exact .inl rfl
  | reserved => exact .inl rfl

theorem runCommand_of_halted (x : Executing) {s : State} (h : s.halted = true) : runCommand x s = .next s := by
  simp [runCommand, h]

theorem runCommand_of_error {x : Executing} {s : State} {c : Cause} (h : s.halted = false)
    (hd : decode s.numEngines x.cmd = .error c) : runCommand x s = .next (s.raiseFault c x.cmd) := by
  simp [runCommand, h, hd]

theorem runCommand_of_ok {x : Executing} {s : State} {i : Instr} (h : s.halted = false)
    (hd : decode s.numEngines x.cmd = .ok i) : runCommand x s = exec i s := by
  simp [runCommand, h, hd]

/-- A command changes nothing in a halted block; else it completes with a fault of its decoding, or as `exec` says of the
command it decodes to. -/
theorem runCommand_cases (x : Executing) (s : State) :
    (s.halted = true ∧ runCommand x s = .next s) ∨
    (∃ c, s.halted = false ∧ decode s.numEngines x.cmd = .error c ∧
      runCommand x s = .next (s.raiseFault c x.cmd)) ∨
    (∃ i, s.halted = false ∧ decode s.numEngines x.cmd = .ok i ∧ runCommand x s = exec i s) := by
  cases hh : s.halted with
  | true => exact .inl ⟨rfl, runCommand_of_halted x hh⟩
  | false =>
    cases h : decode s.numEngines x.cmd with
    | error c => exact .inr (.inl ⟨c, rfl, rfl, runCommand_of_error hh h⟩)
    | ok i => exact .inr (.inr ⟨i, rfl, rfl, runCommand_of_ok hh h⟩)

/-- Everything a step can do when it answers a next state. -/
theorem step_cases {s t : State} (h : step s = .next t) :
    (s.executing = none ∧ s.host = [] ∧ t = s) ∨
    (∃ x u, s.executing = some x ∧ completesNow x s.host = true ∧ runCommand x s = .next u ∧ t = u.retire x) ∨
    (∃ ev rest, s.executing = none ∧ s.host = ev :: rest ∧ hostEvent ev { s with host := rest } = .next t) ∨
    (∃ x ev rest, s.executing = some x ∧ completesNow x s.host = false ∧ s.host = ev :: rest ∧
      hostEvent ev { s.passAccess x with host := rest } = .next t) := by
  unfold step stepOnce at h
  split at h
  · rename_i hx
    unfold hostTurn at h
    split at h
    · rename_i hh
      exact .inl ⟨hx, hh, by simpa using h.symm⟩
    · rename_i ev rest hh
      exact .inr (.inr (.inl ⟨ev, rest, hx, hh, h⟩))
  · rename_i x hx
    split at h
    · rename_i hc
      unfold complete at h
      split at h
      · rename_i u hu
        exact .inr (.inl ⟨x, u, hx, hc, hu, by simpa using h.symm⟩)
      · cases h
      · cases h
    · rename_i hc
      unfold hostTurn at h
      split at h
      · rename_i hh
        simp only [State.passAccess_host] at hh
        exact absurd (by simp [completesNow, hh]) hc
      · rename_i ev rest hh
        exact .inr (.inr (.inr ⟨x, ev, rest, hx, by simpa using hc, hh, h⟩))

end Sys2Proof.Machine
end

