-- ==== Sys2Proof/Laws/Run.lean ====
section
/-! SUPPORT. The terms of Safety: the state after a command, runs of steps, engines of a state, and the draws of the
capture loop. -/

namespace Sys2Proof.Machine

/-! Engines of a state -/

theorem State.engine?_of_lt {s : State} {e : BitVec 4} (h : e.toNat < s.numEngines) : ∃ g, s.engine? e = some g :=
  Option.isSome_iff_exists.mp (State.engine?_isSome.mpr h)

theorem State.engine?_setEngine_of_lt {s : State} {e : BitVec 4} (g : Engine) (h : e.toNat < s.numEngines) :
    (s.setEngine e g).engine? e = some g :=
  (State.engine?_of_lt h).elim fun _ hg => State.engine?_setEngine_self hg

theorem State.setEngine_comm {s : State} {k e : BitVec 4} {g h : Engine} (hk : k ≠ e) :
    (s.setEngine k g).setEngine e h = (s.setEngine e h).setEngine k g := by
  have : k.toNat ≠ e.toNat := fun h => hk (BitVec.eq_of_toNat_eq h)
  simp only [State.setEngine, List.set_comm _ _ this]

@[simp] theorem State.setEngine_setEngine (s : State) (e : BitVec 4) (g h : Engine) :
    (s.setEngine e g).setEngine e h = s.setEngine e h := by
  simp [State.setEngine]

/-! The state after a command -/

theorem State.after_of_next {s t : State} {i : Instr} (h : exec i s = .next t) : s.after i = t := by
  simp only [State.after, h]

theorem State.after_bufClear (s : State) : s.after .bufClear = s.clearBuffer := rfl

theorem State.after_next {s : State} {e : BitVec 4} {g : Engine} (h : s.engine? e = some g)
    (hl : g.life = .advancing) :
    s.after (.next e) = (s.setEngine e (g.draw s.config).2).setResult (temper s.config (g.draw s.config).1) :=
  State.after_of_next (execNext_of_advancing h hl)

theorem State.after_pushOut {s : State} (h : s.bcnt.val < 624) :
    s.after .pushOut = s.pushWord (untemper s.config s.operand) :=
  State.after_of_next (execPushOut_of_room (count_ne_full.mpr h))

theorem State.after_inject {s : State} {e : BitVec 4} {g : Engine} (h : s.engine? e = some g) (hb : s.bcnt = full) :
    s.after (.inject e) = (s.setEngine e (Engine.injected s.buf)).clearBuffer :=
  State.after_of_next (execInject_of_full h hb)

/-! Runs -/

theorem run_succ {s t : State} {k : Nat} (h : step s = .next t) :
    Host.Core.run Sys2Proof.core (k + 1) s = Host.Core.run Sys2Proof.core k t := by
  simp only [Host.Core.run, show Sys2Proof.core.step s = .next t from h]

/-! The capture loop -/

theorem captureLoop_succ (c : Config) (g : Engine) (buf : WordVec) (k : Nat) :
    captureLoop c g buf (k + 1) =
      (((captureLoop c g buf k).1.draw c).2,
        setWord (captureLoop c g buf k).2 k (untemper c (temper c ((captureLoop c g buf k).1.draw c).1))) := rfl

theorem captureLoop_life (c : Config) (g : Engine) (buf : WordVec) (k : Nat) :
    (captureLoop c g buf k).1.life = g.life := by
  induction k with
  | zero => rfl
  | succ k ih => rw [captureLoop_succ, Engine.draw_life, ih]

/-- The draws do not depend on the words the buffer held, and neither do the words captured over them. -/
theorem captureLoop_congr (c : Config) (g : Engine) (u v : WordVec) {k : Nat} (hk : k ≤ 624) :
    (captureLoop c g u k).1 = (captureLoop c g v k).1 ∧
    ∀ j, j < k → wordAt (captureLoop c g u k).2 j = wordAt (captureLoop c g v k).2 j := by
  induction k with
  | zero => exact ⟨rfl, fun _ h => absurd h (Nat.not_lt_zero _)⟩
  | succ k ih =>
    obtain ⟨hg, hw⟩ := ih (by omega)
    rw [captureLoop_succ, captureLoop_succ, hg]
    refine ⟨rfl, fun j hj => ?_⟩
    rw [wordAt_setWord_of_lt _ _ (by omega) (by omega), wordAt_setWord_of_lt _ _ (by omega) (by omega)]
    split
    · rfl
    · exact hw j (by omega)

/-- A whole capture leaves nothing of the buffer's old words. -/
theorem captureLoop_full_congr (c : Config) (g : Engine) (u v : WordVec) :
    captureLoop c g u 624 = captureLoop c g v 624 :=
  have h := captureLoop_congr c g u v (Nat.le_refl 624)
  Prod.ext h.1 (wordVec_ext h.2)

end Sys2Proof.Machine
end

