-- ==== Sys2Proof/Tests/Slice0.lean ====
section
/-! SUPPORT. Tests of the decoder, of each command and of the register window against the spec's own vectors
(95_test_vectors.md), and for each obligation with hypotheses a witness that meets them. -/

namespace Sys2Proof.Tests

-- One thread: many kernel evaluations at once need more memory for stacks than check.sh allows.
set_option Elab.async false

open Sys2Proof.Machine

/-! Small states -/

/-- The next state of an outcome, or the reset state. -/
def nextOf : Host.Outcome State Fault Refusal → State
  | .next t    => t
  | .fault _   => State.reset
  | .refused _ => State.reset

/-- 624 words of 0. -/
def zeros : WordVec := Vector.replicate 624 0

/-- An engine that has no state (R23), its vector and cursor written as zeros. -/
def blank : Engine where
  life := .uninit
  cur  := 0
  mt   := zeros

/-- An ADVANCING engine of zeros at a cursor. -/
def eng (c : Count) : Engine where
  life := .advancing
  cur  := c
  mt   := zeros

/-- A block at address 0x1000 with these engines and this buffer count, its buffer all zeros, otherwise as after reset. -/
def blk (engines : List Engine) (bcnt : Count) : State :=
  { State.reset with
    config  := { Config.standard with base := 0x1000 }
    engines := engines
    buf     := zeros
    bcnt    := bcnt }

/-- `s` with a command in execution. -/
def busyWith (s : State) (cmd : Word) (wait : Nat) (refused : Option Word) : State :=
  { s with executing := some { cmd := cmd, operand := s.data, wait := wait, refused := refused } }

/-- One step that runs the CMD word `w` from `s`. -/
def runs (s : State) (w : Nat) : State := nextOf (step (s.withFetchWord 32 w))

/-! Well-formedness: each check refuses an ill-formed command (R63) -/

theorem test_ill_formed_seed : Instr.wellFormed 2 (.seed 2) = false := by decide
theorem test_ill_formed_next : Instr.wellFormed 2 (.next 15) = false := by decide
theorem test_ill_formed_inject : Instr.wellFormed 15 (.inject 15) = false := by decide
theorem test_ill_formed_recover_destination : Instr.wellFormed 2 (.recover 2 0) = false := by decide
theorem test_ill_formed_recover_source : Instr.wellFormed 2 (.recover 0 2) = false := by decide
theorem test_well_formed_at_the_bound :
    Instr.wellFormed 2 (.recover 1 1) = true ∧ Instr.wellFormed 16 (.recover 15 15) = true := by decide

/-! Decoding: words written out from R68's patterns, for each command -/

theorem test_decode_seed : decode 16 0b00000000000000000000101000000001#32 = .ok (.seed 10) := by decide
theorem test_decode_next : decode 16 0b00000000000000000000010100000010#32 = .ok (.next 5) := by decide
theorem test_decode_buf_clear : decode 2 0b00000000000000000000000000000011#32 = .ok .bufClear := by decide
theorem test_decode_push_raw : decode 2 0b00000000000000000000000000000100#32 = .ok .pushRaw := by decide
theorem test_decode_push_out : decode 2 0b00000000000000000000000000000101#32 = .ok .pushOut := by decide
theorem test_decode_inject : decode 16 0b00000000000000000000110000000110#32 = .ok (.inject 12) := by decide
theorem test_decode_recover : decode 16 0b00000000000000000011000100000111#32 = .ok (.recover 1 3) := by decide
theorem test_decode_temper : decode 2 0b00000000000000000000000000001000#32 = .ok .temper := by decide
theorem test_decode_untemper : decode 2 0b00000000000000000000000000001001#32 = .ok .untemper := by decide

/-- The decode vectors F1 to F7, F12 and F13 of 95_test_vectors.md section 6. -/
theorem test_decode_faults :
    decode 2 0x00000000#32 = .error .illegalCmd ∧ decode 2 0x0000000A#32 = .error .illegalCmd ∧
    decode 2 0x00010002#32 = .error .illegalCmd ∧ decode 2 0x00001002#32 = .error .illegalCmd ∧
    decode 2 0x00000103#32 = .error .illegalCmd ∧ decode 2 0x00000202#32 = .error .badEngine ∧
    decode 2 0x00002007#32 = .error .badEngine ∧ decode 2 0x00000206#32 = .error .badEngine ∧
    decode 2 0x00010F06#32 = .error .illegalCmd := by decide

/-- An unused field is illegal before an engine number is looked at (R65, R157). -/
theorem test_decode_illegal_before_bad_engine :
    decode 2 0x00001F01#32 = .error .illegalCmd ∧ decode 2 0x000000FF#32 = .error .illegalCmd ∧
    decode 2 0x00001009#32 = .error .illegalCmd ∧ decode 15 0x00000F02#32 = .error .badEngine := by decide

/-- The table rows' words, as the host numbers them, decode and encode back. -/
theorem test_table_words :
    decodeTableWord 32 0x00000101 = some (.seed 1) ∧ decodeTableWord 32 0x00001007 = some (.recover 0 1) ∧
    decodeTableWord 32 0x00000203 = none ∧ encode (.recover 1 0) = 0x00000107#32 := by decide

/-! TEMPER and UNTEMPER: 95_test_vectors.md section 2 -/

/-- X7, and F17: the step leaves STATUS 0. -/
theorem test_temper_vector :
    (runs { State.reset with data := 0x12345678 } 0x00000008).result = 0x2B7E4A2D#32 ∧
    (runs { State.reset with data := 0x12345678 } 0x00000008).statusWord = 0 := by decide +kernel

/-- X2, X5, X8, X11. -/
theorem test_temper_more_vectors :
    temper Config.standard 0x00000001#32 = 0x00400091#32 ∧ temper Config.standard 0x7FFFFFFF#32 = 0xE7F039FC#32 ∧
    temper Config.standard 0xDEADBEEF#32 = 0xE016575D#32 ∧
    temper Config.standard 0x9908B0DF#32 = 0xFE97EAEC#32 := by decide

/-- X14, as a step. -/
theorem test_untemper_vector :
    (runs { State.reset with data := 0x8C7F0AAC } 0x00000009).result = 0x91A10D12#32 := by decide +kernel

/-- X16, X18 and X20, single inverse steps. -/
theorem test_inverse_steps :
    invL 0xFFFFFFFF#32 { shift := 7, mask := 0x9D2C5680 } = 0xF2DBE97F#32 ∧
    invR 0xFFFFFFFF#32 { shift := 18, mask := 0xFFFFFFFF } = 0xFFFFC000#32 ∧
    invL 0x00000001#32 { shift := 7, mask := 0x9D2C5680 } = 0x10204081#32 := by decide +kernel

/-! SEED, NEXT and INJECT: sections 3 and 4 -/

/-- SeedFill(0)[2], [3], [397] and SeedFill(FFFFFFFF)[1]. -/
theorem test_seed_fill :
    seedWord Config.standard 0 2 = 0x6C078967#32 ∧ seedWord Config.standard 0 3 = 0x714ACB41#32 ∧
    seedWord Config.standard 0 397 = 0x08A9BDCD#32 ∧ seedWord Config.standard 0xFFFFFFFF 1 = 0x4FE1DA6D#32 := by
  decide +kernel

/-- MT[e][0] after `SEED e, #0` is 91A10D12, worked through in section 3 from SeedFill(0)[0], [1] and [397]. -/
theorem test_seed_first_word :
    wordAt (Engine.seeded Config.standard 0).mt 0 = 0x91A10D12#32 := by
  have hw : ∀ i < 624, wordAt (seedFill Config.standard 0) i = seedWord Config.standard 0 i :=
    fun i hi => wordAt_ofFn _ hi
  have h0 := hw 0 (by decide)
  have h1 := hw 1 (by decide)
  have h397 := hw 397 (by decide)
  rw [Engine.seeded, wordAt_twist _ _ (by decide)]
  simp only [twistLoop, twistWord, Nat.zero_add, h0, h1, h397]
  decide +kernel

/-- E2: at cursor 623 NEXT gives the last word, here MT[0][623] = 91A10D12, and leaves cursor 624. -/
theorem test_next_at_623 :
    let s := blk [{ eng 623 with mt := setWord zeros 623 0x91A10D12 }, blank] 0
    (runs s 0x00000002).result = 0x8C7F0AAC#32 ∧
      ((runs s 0x00000002).engine? 0).map (·.cur) = some full := by decide +kernel

/-- T4 and T5: one step of the twist at i = 0, and at i = 623 with the new word 0. -/
theorem test_twist_steps :
    twistWord Config.standard (setWord zeros 1 1) 0 = 0x9908B0DF#32 ∧
    twistWord Config.standard (setWord (setWord zeros 1 1) 0 0x9908B0DF) 623 = 0x958CE8B0#32 := by decide +kernel

/-- INJECT of a full buffer leaves cursor 624 and BCNT 0 (R106). -/
theorem test_inject_full_buffer :
    ((runs (blk [blank, blank] 624) 0x00000106).engine? 1).map (·.cur) = some full ∧
    (runs (blk [blank, blank] 624) 0x00000106).statusWord = 0 := by decide +kernel

/-! The buffer commands and RECOVER: sections 5 to 7 -/

/-- R130: BUF_CLEAR on a full buffer (F15). -/
theorem test_buf_clear_full : (runs (blk [blank, blank] 624) 0x00000003).statusWord = 0 := by decide +kernel

/-- P6: the first push of a raw word. -/
theorem test_push_raw_first_word :
    let t := runs { blk [blank, blank] 0 with data := 0x6C078967 } 0x00000004
    wordAt t.buf 0 = 0x6C078967#32 ∧ t.statusWord = 0x00000100#32 := by decide +kernel

/-- P4: the third push of an output word. -/
theorem test_push_out_third_word :
    let t := runs { blk [blank, blank] 2 with data := 0xB716A675 } 0x00000005
    wordAt t.buf 2 = 0x6FF72554#32 ∧ t.statusWord = 0x00000300#32 := by decide +kernel

/-- P7: a draw of the capture loop takes the raw word at the cursor into the buffer. -/
theorem test_recover_first_draw :
    wordAt (captureLoop Config.standard { eng 100 with mt := setWord zeros 100 0x2BFB73E9 } zeros 1).2 0 =
      0x2BFB73E9#32 := by decide +kernel

/-! Faults: section 6 -/

/-- F1, F6, F10 and F11 from reset: STATUS and FAULTCMD. -/
theorem test_faults_from_reset :
    (runs State.reset 0x00000000).statusWord = 0x00000012#32 ∧ (runs State.reset 0x00000000).faultCmd = 0 ∧
    (runs State.reset 0x00000202).statusWord = 0x00000022#32 ∧ (runs State.reset 0x00000202).faultCmd = 0x202#32 ∧
    (runs State.reset 0x00000002).statusWord = 0x00000032#32 ∧ (runs State.reset 0x00000002).faultCmd = 2#32 ∧
    (runs State.reset 0x00000107).statusWord = 0x00000032#32 ∧ (runs State.reset 0x00000107).faultCmd = 0x107#32 := by
  decide +kernel

/-- F8 and F9: LEN_MISMATCH, STATUS.BCNT keeping the count. -/
theorem test_length_mismatch :
    (runs (blk [blank, blank] 0) 0x00000006).statusWord = 0x00000042#32 ∧
    (runs (blk [blank, blank] 624) 0x00000004).statusWord = 0x00027042#32 := by decide +kernel

/-- F14: SEED written while halted is ignored. -/
theorem test_halted_ignores_seed :
    let s := { blk [blank, blank] 0 with
      halted := true, cause := .lenMismatch, faultCmd := 6, host := [.write 32 0x1000 0x00000001] }
    (nextOf (step s)).busy = false ∧ (nextOf (step s)).statusWord = 0x00000042#32 ∧
      (nextOf (step s)).faultCmd = 6#32 := by decide +kernel

/-- F16: the executing NEXT completes, then OVERRUN is recorded with the refused word. -/
theorem test_overrun_after_next :
    let t := nextOf (step (busyWith (blk [eng 0, blank] 0) 0x00000002 0 (some 0x00000002)))
    t.statusWord = 0x00000052#32 ∧ t.faultCmd = 2#32 ∧ (t.engine? 0).map (·.cur) = some 1 := by decide +kernel

/-! The register window: 20_memory.md section 2 -/

/-- A CMD write latches the command with DATA, and STATUS then reads BUSY with the old count. -/
theorem test_cmd_write_starts_a_command :
    let t := nextOf (hostEvent (.write 32 0x1000 0x00000004) { blk [blank, blank] 3 with data := 7 })
    t.operand = 7#32 ∧ t.statusWord = 0x00000301#32 := by decide +kernel

/-- A DATA write after the CMD write does not reach the command (R44). -/
theorem test_operand_is_latched :
    let s := busyWith { blk [blank, blank] 0 with data := 7 } 0x00000004 1 none
    wordAt (nextOf (step { s with data := 9, executing := s.executing })).buf 0 = 7#32 := by decide +kernel

/-- The last admitted offset reads 0; one further, a byte access and a misaligned one stop. -/
theorem test_window_edges :
    let s := blk [blank, blank] 0
    (nextOf (hostEvent (.read 32 0x103C) s)).observed = [0] ∧
    hostEvent (.read 32 0x1040) s = .fault .accessNotAdmitted ∧
    hostEvent (.read 8 0x1004) s = .fault .accessNotAdmitted ∧
    hostEvent (.write 32 0x1002 1) s = .fault .accessNotAdmitted := ⟨rfl, rfl, rfl, rfl⟩

/-! Witnesses: for each obligation with hypotheses a state and operands that meet them all, for each clause at a boundary
of its range -/

/-- A configuration whose tempering steps have mask 0, so that Temper changes nothing. -/
def plain : Config :=
  { Config.standard with
    step1 := { shift := 1, mask := 0 }
    step2 := { shift := 31, mask := 0 }
    step3 := { shift := 1, mask := 0 }
    step4 := { shift := 31, mask := 0 } }

/-- A block with sixteen blank engines. -/
def wide (bcnt : Count) : State := blk (List.replicate 16 blank) bcnt

/-- A raw stream of zeros. -/
theorem zeros_stream (c : Config) : IsStreamFrom c (fun _ => 0) 0 := by
  intro k _
  simp [mix]

theorem zeros_at (c : Config) (n : Count) : Engine.AtPosition c (fun _ => 0) n.val (eng n) := by
  refine ⟨rfl, 0, (Nat.zero_add _).symm, zeros_stream c, fun i hi => ?_⟩
  rw [wordAt_of_lt _ hi]
  simp [eng, zeros]

theorem temper_plain (x : Word) : temper plain x = x := by
  simp [temper, stepR, stepL, plain]

theorem seed_completes {s : State} {e : BitVec 4} {g : Engine} (h : s.engine? e = some g) :
    ∃ t g', exec (.seed e) s = .next t ∧ t.engine? e = some g' ∧ g'.life = .advancing :=
  ⟨_, _, execSeed_of_engine h, State.engine?_setEngine_self h, rfl⟩

theorem next_completes {s : State} {e : BitVec 4} {g : Engine} (h : s.engine? e = some g) (hl : g.life = .advancing) :
    ∃ t g', exec (.next e) s = .next t ∧ t.engine? e = some g' ∧ g'.life = .advancing :=
  ⟨_, _, execNext_of_advancing h hl, State.engine?_setEngine_self h, by rw [Engine.draw_life, hl]⟩

theorem inject_completes {s : State} {e : BitVec 4} {g : Engine} (h : s.engine? e = some g) (hb : s.bcnt = full) :
    ∃ t g', exec (.inject e) s = .next t ∧ t.engine? e = some g' ∧ g'.life = .advancing :=
  ⟨_, _, execInject_of_full h hb, State.engine?_setEngine_self h, rfl⟩

theorem witness_DecodeOfEncodeIsTheCommand :
    Instr.wellFormed 16 (.seed 15) = true ∧ Instr.wellFormed 16 (.next 15) = true ∧
    Instr.wellFormed 2 .bufClear = true ∧ Instr.wellFormed 2 .pushRaw = true ∧ Instr.wellFormed 2 .pushOut = true ∧
    Instr.wellFormed 16 (.inject 15) = true ∧ Instr.wellFormed 16 (.recover 15 15) = true ∧
    Instr.wellFormed 2 .temper = true ∧ Instr.wellFormed 2 .untemper = true := by decide

theorem witness_EncodeOfDecodeIsTheWord : decode 16 0x0000FF07#32 = .ok (.recover 15 15) := by decide

theorem witness_CommandWordsOfEachCommand :
    decode 16 0x00000F01#32 = .ok (.seed 15) ∧ decode 16 0x00000F02#32 = .ok (.next 15) ∧
    decode 16 0x00000F06#32 = .ok (.inject 15) ∧ decode 16 0x0000F007#32 = .ok (.recover 0 15) ∧
    decode 15 0x0000F007#32 = .error .badEngine := by decide

theorem witness_IllegalCommandWords :
    decode 2 0x00010001#32 = .error .illegalCmd ∧ decode 2 0x00000000#32 = .error .illegalCmd ∧
    decode 2 0x0000000A#32 = .error .illegalCmd ∧ decode 2 0x00000109#32 = .error .illegalCmd ∧
    decode 2 0x00001001#32 = .error .illegalCmd ∧ (255 : Nat) < 256 := by decide

theorem witness_BadEngineCommandWords :
    decode 2 0x00000201#32 = .error .badEngine ∧ decode 2 0x00000207#32 = .error .badEngine ∧
    decode 2 0x00002007#32 = .error .badEngine ∧ decode 16 0x0000000A#32 = .error .illegalCmd := by decide

theorem witness_TemperStepsBitByBit :
    let p : ShiftMask := { shift := 1, mask := 0xFFFFFFFF }
    let q : ShiftMask := { shift := 31, mask := 0xFFFFFFFF }
    p.Valid ∧ q.Valid ∧ (30 + p.shift ≤ 31) ∧ ¬(31 + p.shift ≤ 31) ∧ q.shift ≤ 31 ∧ ¬(q.shift ≤ 30) := by decide

theorem witness_InverseStepsUndoTheSteps :
    ShiftMask.Valid { shift := 31, mask := 0xFFFFFFFF } ∧ stepR 0 { shift := 31, mask := 0xFFFFFFFF } = 0 ∧
    stepL 0 { shift := 31, mask := 0xFFFFFFFF } = 0 := by decide

theorem witness_UntemperIsTheInverseOfTemper :
    Config.standard.Valid ∧ plain.Valid ∧ ∀ x : Word, temper plain (id x) = x :=
  ⟨by decide, by decide, temper_plain⟩

theorem witness_TemperWritesResult :
    (0x00000008#32).toNat % 256 = 0x08 ∧ (0x00000108#32).toNat % 256 = 0x08 := by decide

theorem witness_UntemperWritesThePreimage :
    (0x00000009#32).toNat % 256 = 0x09 ∧ (0x00010009#32).toNat % 256 = 0x09 ∧ Config.standard.Valid := by decide

theorem witness_SeedingRecurrence : (1 ≤ 1 ∧ 1 ≤ 623) ∧ (1 ≤ 623 ∧ 623 ≤ 623) := by decide

theorem witness_TwistReadsOldAndNewWords :
    226 ≤ 226 ∧ (227 ≤ 227 ∧ 227 ≤ 622) ∧ (227 ≤ 622 ∧ 622 ≤ 622) := by decide

theorem witness_TwistAdvancesTheWindow :
    IsStreamFrom Config.standard (fun _ => 0) 0 ∧ Window (fun _ => 0) 0 zeros :=
  ⟨zeros_stream _, fun i hi => by rw [wordAt_of_lt _ hi]; simp [zeros]⟩

theorem witness_SeedFillsAndTwists :
    (1#4).toNat < State.reset.numEngines ∧ (15#4).toNat < (wide 0).numEngines := by decide

theorem witness_NextGivesTheWordAtTheCursor :
    (blk [eng 623, blank] 0).engine? 0 = some (eng 623) ∧ (blk [blank, eng 624] 0).engine? 1 = some (eng 624) ∧
    (eng 623).life = .advancing ∧ (eng 623).cur.val < 624 ∧ ¬((eng 624).cur.val < 624) :=
  ⟨rfl, rfl, rfl, by decide, by decide⟩

theorem witness_InjectReplacesTheEngine :
    (15#4).toNat < (wide 624).numEngines ∧ (wide 624).bcnt.val = 624 := by decide

theorem witness_FirstOutputAfterInjectTwists :
    (0#4).toNat < (wide 624).numEngines ∧ (wide 624).bcnt.val = 624 := by decide

theorem witness_ZeroVectorGivesZeroOutputs :
    (1#4).toNat < (wide 624).numEngines ∧ (wide 624).bcnt.val = 624 ∧
    ∀ j, j < 624 → wordAt (wide 624).buf j = 0 :=
  ⟨by decide, by decide, fun j hj => by rw [wordAt_of_lt _ hj]; simp [wide, blk, zeros]⟩

theorem witness_EnginesDenotePositionsOfStreams :
    (eng 624).life = .advancing ∧ (blk [eng 624, blank] 0).engine? 0 = some (eng 624) ∧
    Engine.AtPosition (blk [eng 624, blank] 0).config (fun _ => 0) 624 (eng 624) ∧
    (1#4).toNat < (blk [blank, blank] 624).numEngines ∧ (blk [blank, blank] 624).bcnt.val = 624 :=
  ⟨rfl, rfl, zeros_at _ 624, by decide, by decide⟩

/-- The engine itself and another as RECOVER's destination, and a command that leaves the two blocks different. -/
theorem witness_EagerAndLazyFirstTwistAgree :
    (1#4).toNat < State.reset.numEngines ∧ (0#4).toNat < State.reset.numEngines ∧
    ∃ t, exec .bufClear (State.reset.setEngine 1 (Engine.seeded State.reset.config 0)) = .next t :=
  ⟨by decide, by decide, _, rfl⟩

theorem witness_CadenceAfterSeed :
    (0#4).toNat < State.reset.numEngines ∧ ¬(0 < 0 ∧ 624 ∣ 0) ∧ (0 < 624 ∧ 624 ∣ 624) := by decide

theorem witness_BufferCommandsFillTheBuffer :
    (blk [blank, blank] 0).bcnt.val < 624 ∧ (blk [blank, blank] 623).bcnt.val < 624 := by decide

theorem witness_RecoverCompletes :
    (0#4).toNat < (blk [eng 100, blank] 0).numEngines ∧ (1#4).toNat < (blk [eng 100, blank] 0).numEngines ∧
    (blk [eng 100, blank] 0).engine? 0 = some (eng 100) ∧ (eng 100).life = .advancing :=
  ⟨by decide, by decide, rfl, rfl⟩

theorem witness_RecoverClonesTheSource :
    (blk [eng 623, blank] 0).config.Valid ∧ (1#4).toNat < (blk [eng 623, blank] 0).numEngines ∧
    (blk [eng 623, blank] 0).engine? 0 = some (eng 623) ∧
    Engine.AtPosition (blk [eng 623, blank] 0).config (fun _ => 0) 623 (eng 623) :=
  ⟨by decide, by decide, rfl, zeros_at _ 623⟩

theorem witness_RecoverIsItsExpansion :
    (blk [blank, eng 624] 7).executing = none ∧ (1#4).toNat < (blk [blank, eng 624] 7).numEngines ∧
    (blk [blank, eng 624] 7).engine? 1 = some (eng 624) ∧ (eng 624).life = .advancing :=
  ⟨rfl, by decide, rfl, rfl⟩

theorem witness_CaptureClonesFromOutputs :
    (blk [blank, blank] 3).config.Valid ∧ (blk [blank, blank] 3).executing = none ∧
    (1#4).toNat < (blk [blank, blank] 3).numEngines ∧
    IsStreamFrom (blk [blank, blank] 3).config (fun _ => 0) 0 ∧
    ∀ k, k < 624 → (0 : Word) = temper (blk [blank, blank] 3).config 0 :=
  ⟨by decide, rfl, by decide, zeros_stream _, fun _ _ => by decide⟩

theorem witness_PartialBufferIsNeverInjected :
    (blk [blank, blank] 623).bcnt.val < 624 ∧ (1#4).toNat < (blk [blank, blank] 623).numEngines ∧
    (blk [blank, blank] 623).halted = false ∧
    ∃ t u, exec .bufClear (blk [blank, blank] 623) = .next t ∧
      exec .bufClear { blk [blank, blank] 623 with buf := setWord zeros 0 1 } = .next u :=
  ⟨by decide, by decide, rfl, _, _, rfl, rfl⟩

/-- One command for each cause. -/
theorem witness_FaultsWriteOnlyTheRecord :
    let s := blk [blank, blank] 0
    let x := fun cmd : Word => ({ cmd := cmd, operand := 0, wait := 0, refused := none } : Executing)
    s.halted = false ∧
    (∃ t, runCommand (x 0x0000000A) s = .next t ∧ t.halted = true ∧ t.cause = .illegalCmd) ∧
    (∃ t, runCommand (x 0x00000201) s = .next t ∧ t.halted = true ∧ t.cause = .badEngine) ∧
    (∃ t, runCommand (x 0x00000102) s = .next t ∧ t.halted = true ∧ t.cause = .uninit) ∧
    (∃ t, runCommand (x 0x00000006) s = .next t ∧ t.halted = true ∧ t.cause = .lenMismatch) ∧
    ({ x 0x00000008 with refused := some 3 } : Executing).refused = some 3 :=
  ⟨rfl, ⟨_, rfl, rfl, rfl⟩, ⟨_, rfl, rfl, rfl⟩, ⟨_, rfl, rfl, rfl⟩, ⟨_, rfl, rfl, rfl⟩, rfl⟩

theorem witness_UninitEnginesFault :
    (blk [eng 0, blank] 624).halted = false ∧ (blk [eng 0, blank] 624).engine? 1 = some blank ∧
    blank.life = .uninit ∧ (0#4).toNat < (blk [eng 0, blank] 624).numEngines ∧
    State.reset.engine? 0 = some (Engine.reset 0) ∧
    (∃ t g, exec (.seed 1) (blk [eng 0, blank] 624) = .next t ∧ t.engine? 1 = some g ∧ g.life = .advancing) ∧
    (∃ t g, exec (.inject 1) (blk [eng 0, blank] 624) = .next t ∧ t.engine? 1 = some g ∧ g.life = .advancing) :=
  ⟨rfl, rfl, rfl, by decide, rfl, seed_completes (g := blank) rfl, inject_completes (g := blank) rfl rfl⟩

theorem witness_LengthMismatchFaults :
    (blk [blank, blank] 623).halted = false ∧ (1#4).toNat < (blk [blank, blank] 623).numEngines ∧
    (blk [blank, blank] 623).bcnt.val ≠ 624 ∧ (blk [blank, blank] 0).bcnt.val ≠ 624 ∧
    (blk [blank, blank] 624).bcnt.val = 624 := by decide

/-- A refused write after a command that completes, and after one that faults. -/
theorem witness_OverrunIsRecordedAfterTheCommand :
    let s := busyWith (blk [blank, blank] 0) 0x00000008 0 (some 0x00000002)
    let u := busyWith (blk [blank, blank] 0) 0x00000000 0 (some 0x00000002)
    ∃ x y, s.executing = some x ∧ u.executing = some y ∧ s.halted = false ∧ s.inReset = false ∧
      completesNow x s.host = true ∧ completesNow y u.host = true ∧
      x.refused = some 0x00000002 ∧ y.refused = some 0x00000002 ∧
      (∃ t, runCommand x s = .next t ∧ t.halted = false) ∧ (∃ t, runCommand y u = .next t ∧ t.halted = true) ∧
      ∃ z, (busyWith (blk [blank, blank] 0) 0x00000008 1 none).executing = some z ∧ z.refused = none :=
  ⟨_, _, rfl, rfl, rfl, rfl, rfl, rfl, rfl, rfl, ⟨_, rfl, rfl⟩, ⟨_, rfl, rfl⟩, _, rfl, rfl⟩

theorem witness_HaltedUntilReset :
    let s := { blk [blank, blank] 0 with halted := true, cause := .uninit, host := [.releaseReset] }
    let u := busyWith s 0x00000008 0 none
    s.halted = true ∧ (0x3C < 0x40 ∧ 0x3C % 4 = 0) ∧ s.host.head? ≠ some .assertReset ∧ (∃ t, step s = .next t) ∧
    ∃ x, u.halted = true ∧ u.executing = some x ∧ completesNow x u.host = true :=
  ⟨rfl, by decide, by decide, ⟨_, rfl⟩, _, rfl, rfl, rfl⟩

theorem witness_TransformsRaiseOnlyIllegalCommand :
    let x := fun cmd : Word => ({ cmd := cmd, operand := 0, wait := 0, refused := none } : Executing)
    (x 0x00000108).cmd.toNat % 256 ∈ [0x08, 0x09] ∧ (x 0x00010009).cmd.toNat % 256 ∈ [0x08, 0x09] ∧
    (blk [blank, blank] 0).halted = false ∧
    ∃ t, runCommand (x 0x00000108) (blk [blank, blank] 0) = .next t ∧ t.halted = true :=
  ⟨by decide, by decide, rfl, _, rfl, rfl⟩

theorem witness_IllFormedCommandsFault :
    Instr.wellFormed (blk [blank, blank] 0).numEngines (.seed 2) = false ∧
    Instr.wellFormed (blk [blank, blank] 0).numEngines (.next 2) = false ∧
    Instr.wellFormed (blk [blank, blank] 0).numEngines (.inject 15) = false ∧
    Instr.wellFormed (blk [blank, blank] 0).numEngines (.recover 2 0) = false ∧
    Instr.wellFormed (blk [blank, blank] 0).numEngines (.recover 0 2) = false ∧
    (blk [blank, blank] 0).halted = false := by decide

/-- The first and last offset of each kind of register. -/
theorem witness_WindowReadsWhileIdle :
    (blk [blank, blank] 0).executing = none ∧
    ∀ off ∈ [0x00, 0x04, 0x08, 0x0C, 0x10, 0x14, 0x3C], off < 0x40 ∧ off % 4 = 0 := by decide

theorem witness_WindowReadsWhileBusy :
    (busyWith (blk [blank, blank] 0) 0x00000008 1 none).executing =
      some { cmd := 0x00000008, operand := 0, wait := 1, refused := none } ∧
    ∀ off ∈ [0x00, 0x04, 0x08, 0x0C, 0x10, 0x14, 0x3C], off < 0x40 ∧ off % 4 = 0 := by decide

theorem witness_WindowWrites :
    (blk [blank, blank] 0).executing = none ∧ (blk [blank, blank] 0).halted = false ∧
    (blk [blank, blank] 0).inReset = false ∧
    (busyWith (blk [blank, blank] 0) 0x00000008 1 none).executing =
      some { cmd := 0x00000008, operand := 0, wait := 1, refused := none } ∧
    (∀ s ∈ [{ blk [blank, blank] 0 with halted := true }, { blk [blank, blank] 0 with inReset := true }],
      s.halted = true ∨ s.inReset = true) ∧
    ∀ off ∈ [0x08, 0x0C, 0x10, 0x14, 0x3C], 0x08 ≤ off ∧ off < 0x40 ∧ off % 4 = 0 := by decide

theorem witness_AccessesNotAdmitted :
    let b := (blk [blank, blank] 0).config.base
    (16 : Nat) ≠ 32 ∧ 0xFFF < b ∧ b + 0x40 ≤ 0x1040 ∧ (0x1002 - b) % 4 ≠ 0 := by decide

theorem witness_StepRunsTheDecodedCommand :
    let s := busyWith (blk [eng 0, blank] 0) 0x00000002 0 none
    let u := { busyWith (blk [eng 0, blank] 0) 0x00000002 5 (some 1) with host := [.awaitIdle] }
    ∃ x y, s.executing = some x ∧ s.halted = false ∧ x.wait = 0 ∧ s.host = [] ∧
      decode s.numEngines x.cmd = .ok (.next 0) ∧ u.executing = some y ∧ u.halted = false ∧ u.host.head? = some .awaitIdle ∧ decode u.numEngines y.cmd = .ok (.next 0) :=
  ⟨_, _, rfl, rfl, rfl, rfl, by decide, rfl, rfl, rfl, by decide⟩

theorem witness_StepTakesTheDecodingFault :
    let s := busyWith (blk [blank, blank] 0) 0x00000000 0 none
    let u := busyWith (blk [blank, blank] 0) 0x00000F02 9 (some 3)
    ∃ x y, s.executing = some x ∧ s.halted = false ∧ x.wait = 0 ∧ decode s.numEngines x.cmd = .error .illegalCmd ∧
      u.executing = some y ∧ u.host = [] ∧ decode u.numEngines y.cmd = .error .badEngine :=
  ⟨_, _, rfl, rfl, rfl, by decide, rfl, rfl, by decide⟩

theorem witness_StepTakesTheHostsNextEvent :
    let s := blk [blank, blank] 0
    let u := { busyWith s 0x00000008 1 none with host := [.assertReset] }
    s.executing = none ∧ s.host = [] ∧ ({ s with host := [.releaseReset] } : State).host = [.releaseReset] ∧
    ∃ x, u.executing = some x ∧ u.host = [.assertReset] ∧ HostEvent.assertReset ≠ .awaitIdle ∧ x.wait ≠ 0 :=
  ⟨rfl, rfl, rfl, _, rfl, rfl, by decide, by decide⟩

theorem witness_AssemblerLineRunsItsCommand :
    let s := { blk [blank, blank] 0 with host := asmLine 0x1000 (.seed 1) (some 5489) ++ [HostEvent.releaseReset] }
    let u := { blk [blank, blank] 0 with host := asmLine 0x1000 .bufClear none ++ [] }
    s.executing = none ∧ s.halted = false ∧ s.inReset = false ∧ Instr.wellFormed s.numEngines (.seed 1) = true ∧
    s.host = asmLine s.config.base (.seed 1) (some 5489) ++ [.releaseReset] ∧
    u.host = asmLine u.config.base .bufClear none ++ [] :=
  ⟨rfl, rfl, rfl, by decide, rfl, rfl⟩

theorem witness_AcceptedCommandsFinish :
    let s := { busyWith (blk [blank, blank] 0) 0x00000008 1 none with host := [.read 32 0x100C] }
    (∃ x, s.executing = some x) ∧
    ∀ ev ∈ s.host, ∀ width addr w, ev = .read width addr ∨ ev = .write width addr w →
      (admitted s.config.base width addr).isSome = true := by
  refine ⟨⟨_, rfl⟩, fun ev hev width addr w h => ?_⟩
  obtain rfl : ev = .read 32 0x100C := by simpa using hev
  obtain h | h := h <;> cases h
  decide

theorem witness_ResetValues : State.reset.engine? 1 = some (Engine.reset 1) ∧ State.reset.engine? 2 = none :=
  ⟨rfl, rfl⟩

theorem witness_ConfigurationNeverChanges : ∃ t, step (blk [blank, blank] 0) = .next t := ⟨_, rfl⟩

/-- A state that meets the invariant, from which a step raises a fault. -/
theorem witness_StepKeepsTheInvariant :
    let s := busyWith (blk [blank, blank] 0) 0x00000000 0 none
    s.Inv ∧ ∃ t, step s = .next t ∧ t.halted = true :=
  ⟨by decide, _, rfl, rfl⟩

theorem witness_UnnamedEnginesAreUntouched :
    1#4 ∉ Instr.engines (.next 0) ∧ ∃ t g, exec (.next 0) (blk [eng 0, blank] 0) = .next t ∧
      t.engine? 0 = some g ∧ g.life = .advancing :=
  ⟨by decide, next_completes (g := eng 0) rfl rfl⟩

/-- Two different states, in the vector and cursor of an UNINIT engine and in an unread buffer word. -/
theorem witness_ValuesNeverWrittenAreNeverRead :
    let s := blk [eng 0, blank] 3
    let t := { s with engines := [eng 0, { blank with cur := 5, mt := setWord zeros 0 1 }], buf := setWord zeros 3 1 }
    s.SameValues t ∧ s ≠ t := by
  refine ⟨⟨rfl, ?_, fun j hj => ?_⟩, fun h => absurd (congrArg (fun u => u.engines.map (·.cur)) h) (by decide)⟩
  · exact .cons ⟨rfl, fun _ => rfl⟩ (.cons ⟨rfl, fun h => by cases h⟩ .nil)
  · have hj : j < 3 := hj
    exact (wordAt_setWord_of_lt zeros (i := 3) (j := j) 1 (by decide) (by omega)).trans (if_neg (by omega)) |>.symm

theorem witness_FrameOfEveryCommand : ∃ t, exec .temper State.reset = .next t := ⟨_, rfl⟩

theorem witness_FrameOfTheEngineCommands :
    let s := blk [eng 0, blank] 624
    (∃ t g, exec (.seed 1) s = .next t ∧ t.engine? 1 = some g ∧ g.life = .advancing) ∧
    (∃ t g, exec (.next 0) s = .next t ∧ t.engine? 0 = some g ∧ g.life = .advancing) ∧
    (∃ t g, exec (.inject 1) s = .next t ∧ t.engine? 1 = some g ∧ g.life = .advancing) ∧
    (1#4).toNat < s.numEngines ∧ s.engine? 0 = some (eng 0) ∧ (eng 0).life = .advancing ∧ s.bcnt.val = 624 :=
  ⟨seed_completes (g := blank) rfl, next_completes (g := eng 0) rfl rfl, inject_completes (g := blank) rfl rfl,
    by decide, rfl, rfl, rfl⟩

theorem witness_FrameOfTheBufferCommands :
    (∃ t, exec .bufClear (blk [blank, blank] 624) = .next t) ∧ (∃ t, exec .pushRaw (blk [blank, blank] 623) = .next t) ∧
    (∃ t, exec .pushOut (blk [blank, blank] 0) = .next t) ∧
    (622 < 624 ∧ 622 ≠ (blk [blank, blank] 623).bcnt.val) ∧ (blk [blank, blank] 623).bcnt.val < 624 :=
  ⟨⟨_, rfl⟩, ⟨_, execPushRaw_of_room (by decide)⟩, ⟨_, execPushOut_of_room (by decide)⟩, by decide, by decide⟩

theorem witness_WritersOfCountAndResult :
    (∃ t, exec .untemper (blk [blank, blank] 3) = .next t) ∧ (blk [blank, blank] 3).halted = false ∧
    ∃ t, exec (.inject 0) (blk [blank, blank] 3) = .next t ∧ t.halted = true :=
  ⟨⟨_, rfl⟩, rfl, _, rfl, rfl⟩

theorem witness_StateVectorsAreReplacedWhole :
    let s := blk [eng 624, blank] 624
    (∃ t g, exec (.seed 1) s = .next t ∧ t.engine? 1 = some g ∧ g.life = .advancing) ∧
    (∃ t g, exec (.next 0) s = .next t ∧ t.engine? 0 = some g ∧ g.life = .advancing) ∧
    (∃ t g, exec (.inject 1) s = .next t ∧ t.engine? 1 = some g ∧ g.life = .advancing) ∧
    s.engine? 0 = some (eng 624) ∧ s.engine? 1 = some blank :=
  ⟨seed_completes (g := blank) rfl, next_completes (g := eng 624) rfl rfl, inject_completes (g := blank) rfl rfl,
    rfl, rfl⟩

end Sys2Proof.Tests
end

section
/-! PROOFS. One step of the sequencer (R11, R12, R185) and the invariant of the block (O52, O43, O45). -/

namespace Sys2Proof.Machine

/-! When the executing command completes, and what a step then is -/

theorem completesNow_iff {x : Executing} {host : List HostEvent} :
    completesNow x host = true ↔ x.wait = 0 ∨ host = [] ∨ host.head? = some .awaitIdle := by
  cases host with
  | nil => simp [completesNow]
  | cons ev rest => cases ev <;> simp [completesNow]

theorem hostTurn_of_nil {s : State} (h : s.host = []) : hostTurn s = .next s := by
  simp [hostTurn, h]

theorem hostTurn_of_cons {s : State} {ev : HostEvent} {rest : List HostEvent} (h : s.host = ev :: rest) :
    hostTurn s = hostEvent ev { s with host := rest } := by
  simp [hostTurn, h]

theorem step_of_idle {s : State} (h : s.executing = none) : step s = hostTurn s := by
  simp [step, stepOnce, h]

theorem step_of_completes {s : State} {x : Executing} (hx : s.executing = some x)
    (hc : completesNow x s.host = true) : step s = complete x s := by
  simp [step, stepOnce, hx, hc]

theorem step_of_waits {s : State} {x : Executing} (hx : s.executing = some x)
    (hc : completesNow x s.host = false) : step s = hostTurn (s.passAccess x) := by
  simp [step, stepOnce, hx, hc]

theorem complete_of_next {x : Executing} {s t : State} (h : runCommand x s = .next t) :
    complete x s = .next (t.retire x) := by
  simp [complete, h]

theorem State.operand_of_executing {s : State} {x : Executing} (hx : s.executing = some x) :
    s.operand = x.operand := by
  simp [State.operand, hx]

/-! What a command leaves of the configuration and of the fault record -/

/-- `t` has the configuration, the number of engines and the fault record of `s`. -/
structure State.SameRecord (s t : State) : Prop where
  config     : t.config = s.config
  numEngines : t.numEngines = s.numEngines
  halted     : t.halted = s.halted
  cause      : t.cause = s.cause
  faultCmd   : t.faultCmd = s.faultCmd

/-- Every command answers a next state: by fault entry with a cause, or with the fault record as it was. -/
theorem exec_faults_or_keeps_record (i : Instr) (s : State) :
    ∃ t, exec i s = .next t ∧ ((∃ c, c ≠ .none ∧ t = s.raiseFault c (encode i)) ∨ s.SameRecord t) := by
  rcases exec_cases i s with ⟨c, hc, h⟩ | ⟨e, g, -, -, h⟩ | ⟨e, g, -, -, -, h⟩ | ⟨-, h⟩ | ⟨-, -, h⟩ | ⟨-, -, h⟩ |
      ⟨e, g, -, -, -, h⟩ | ⟨d, src, g, g', -, -, -, -, h⟩ | ⟨-, h⟩ | ⟨-, h⟩
  · refine ⟨_, h, .inl ⟨c, ?_, rfl⟩⟩
    rcases hc with rfl | rfl | rfl <;> decide
  all_goals exact ⟨_, h, .inr ⟨rfl, by simp [State.numEngines], rfl, rfl, rfl⟩⟩

theorem decode_error_ne_none {n : Nat} {w : Word} {c : Cause} (h : decode n w = .error c) : c ≠ .none := by
  unfold decode at h
  split at h
  · cases h
    decide
  · split at h
    · cases h
    · cases h
      decide

/-! The invariant, apart from the executing command -/

/-- The part of `State.Inv` that does not speak of the executing command: the configuration and the number of engines
are legal, and HALTED, CAUSE and FAULTCMD tell one story. -/
structure State.SoundRecord (s : State) : Prop where
  config     : s.config.Valid
  numEngines : 2 ≤ s.numEngines ∧ s.numEngines ≤ 16
  halted_iff : s.halted = true ↔ s.cause ≠ .none
  faultCmd   : s.halted = false → s.faultCmd = 0

/-- The invariant is a sound record, and no command in execution in a halted block or under reset. -/
theorem State.inv_iff {s : State} :
    s.Inv ↔ s.SoundRecord ∧ (∀ x, s.executing = some x → s.halted = false ∧ s.inReset = false) := by
  constructor
  · rintro ⟨hc, hn, hh, hf, hx, hr⟩
    refine ⟨⟨hc, hn, hh, hf⟩, fun x hs => ⟨?_, ?_⟩⟩
    · exact Bool.eq_false_iff.mpr fun h => by simp [hx h] at hs
    · exact Bool.eq_false_iff.mpr fun h => by simp [hr h] at hs
  · rintro ⟨⟨hc, hn, hh, hf⟩, hx⟩
    refine ⟨hc, hn, hh, hf, fun h => ?_, fun h => ?_⟩
    all_goals exact Option.eq_none_iff_forall_ne_some.mpr fun x hs => by simp [hx x hs] at h

theorem State.SoundRecord.of_same {s t : State} (hs : s.SoundRecord) (h : s.SameRecord t) : t.SoundRecord where
  config := h.config ▸ hs.config
  numEngines := h.numEngines ▸ hs.numEngines
  halted_iff := by rw [h.halted, h.cause]; exact hs.halted_iff
  faultCmd := by rw [h.halted, h.faultCmd]; exact hs.faultCmd

/-- Fault entry with a cause keeps the record sound, in a halted block too, where it writes nothing. -/
theorem State.SoundRecord.raiseFault {s : State} (hs : s.SoundRecord) {c : Cause} (hc : c ≠ .none) (w : Word) :
    (s.raiseFault c w).SoundRecord := by
  cases hh : s.halted with
  | true => rwa [State.raiseFault_of_halted hh]
  | false =>
    rw [State.raiseFault_of_running hh]
    exact ⟨hs.config, hs.numEngines, by simpa using hc, by simp⟩

theorem State.SoundRecord.retire {s : State} (hs : s.SoundRecord) (x : Executing) : (s.retire x).SoundRecord := by
  have hidle : { s with executing := none }.SoundRecord := hs.of_same ⟨rfl, rfl, rfl, rfl, rfl⟩
  cases hr : x.refused with
  | none => rwa [State.retire_of_none s hr]
  | some w =>
    rw [State.retire_of_some s hr]
    exact hidle.raiseFault (by decide) w

theorem State.SoundRecord.runCommand {s t : State} {x : Executing} (hs : s.SoundRecord)
    (h : runCommand x s = .next t) : t.SoundRecord := by
  rcases runCommand_cases x s with ⟨-, hr⟩ | ⟨c, -, hd, hr⟩ | ⟨i, -, -, hr⟩
  · cases hr.symm.trans h
    exact hs
  · cases hr.symm.trans h
    exact hs.raiseFault (decode_error_ne_none hd) x.cmd
  · obtain ⟨u, hu, hcase⟩ := exec_faults_or_keeps_record i s
    cases hu.symm.trans (hr.symm.trans h)
    rcases hcase with ⟨c, hc, rfl⟩ | hsame
    · exact hs.raiseFault hc (encode i)
    · exact hs.of_same hsame

/-! The invariant -/

theorem State.SoundRecord.inv_of_idle {s : State} (hs : s.SoundRecord) (hx : s.executing = none) : s.Inv :=
  State.inv_iff.mpr ⟨hs, by simp [hx]⟩

theorem hostWrite_keeps_inv {s : State} (hs : s.Inv) (r : WindowReg) (w : Word) : (s.hostWrite r w).Inv := by
  obtain ⟨hrec, -⟩ := State.inv_iff.mp hs
  rcases hostWrite_cases s r w with h | h | ⟨hh, hr, x, -, h⟩ | ⟨hh, hr, -, h⟩ <;> rw [h]
  · exact hs
  · exact hs
  · exact State.inv_iff.mpr ⟨hrec.of_same ⟨rfl, rfl, rfl, rfl, rfl⟩, fun _ _ => ⟨hh, hr⟩⟩
  · exact State.inv_iff.mpr ⟨hrec.of_same ⟨rfl, rfl, rfl, rfl, rfl⟩, fun _ _ => ⟨hh, hr⟩⟩

theorem resetBlock_keeps_inv {s : State} (hs : s.Inv) : s.resetBlock.Inv := by
  obtain ⟨hrec, -⟩ := State.inv_iff.mp hs
  have hsound : s.resetBlock.SoundRecord :=
    ⟨hrec.config, by simpa [State.numEngines] using hrec.numEngines, by simp, by simp⟩
  exact hsound.inv_of_idle rfl

theorem releaseReset_keeps_inv {s : State} (hs : s.Inv) : { s with inReset := false }.Inv := by
  obtain ⟨hrec, hexec⟩ := State.inv_iff.mp hs
  exact State.inv_iff.mpr ⟨hrec.of_same ⟨rfl, rfl, rfl, rfl, rfl⟩, fun x hx => ⟨(hexec x hx).1, rfl⟩⟩

theorem hostEvent_keeps_inv {ev : HostEvent} {s t : State} (hs : s.Inv) (h : hostEvent ev s = .next t) : t.Inv := by
  rcases hostEvent_cases h with ⟨r, rfl⟩ | ⟨r, w, rfl⟩ | ⟨-, rfl⟩ | ⟨-, rfl⟩ | ⟨-, rfl⟩
  · exact hs
  · exact hostWrite_keeps_inv hs r w
  · exact hs
  · exact resetBlock_keeps_inv hs
  · exact releaseReset_keeps_inv hs

theorem passAccess_keeps_inv {s : State} {x : Executing} (hs : s.Inv) (hx : s.executing = some x) :
    (s.passAccess x).Inv := by
  obtain ⟨hrec, hexec⟩ := State.inv_iff.mp hs
  exact State.inv_iff.mpr ⟨hrec.of_same ⟨rfl, rfl, rfl, rfl, rfl⟩, fun _ _ => hexec x hx⟩

/-- Settles O52: a step is no change, a completed command, or an event of the host, and each keeps the invariant. -/
theorem stepKeepsTheInvariant : Obligations.StepKeepsTheInvariant := by
  intro s t hs h
  rcases step_cases h with ⟨-, -, rfl⟩ | ⟨x, u, -, -, hrun, rfl⟩ | ⟨ev, rest, -, -, hev⟩ |
      ⟨x, ev, rest, hx, -, -, hev⟩
  · exact hs
  · obtain ⟨hrec, -⟩ := State.inv_iff.mp hs
    exact ((hrec.runCommand hrun).retire x).inv_of_idle (by simp)
  · exact hostEvent_keeps_inv (s := { s with host := rest }) hs hev
  · have hpass : (s.passAccess x).Inv := passAccess_keeps_inv hs hx
    exact hostEvent_keeps_inv (s := { s.passAccess x with host := rest }) hpass hev

/-- Settles O43: the completing command is `exec` of the decoded command, then `State.retire`. -/
theorem stepRunsTheDecodedCommand : Obligations.StepRunsTheDecodedCommand := by
  intro s x i hx hrunning hdone hdec
  obtain ⟨t, ht, -⟩ := exec_faults_or_keeps_record i s
  refine ⟨State.operand_of_executing hx, t, ht, ?_⟩
  have hstep : step s = .next (t.retire x) := by
    rw [step_of_completes hx (completesNow_iff.mpr hdone), complete_of_next]
    rw [runCommand_of_ok hrunning hdec, ht]
  rw [hstep]
  cases hr : x.refused with
  | none => rw [State.retire_of_none t hr]
  | some w => rw [State.retire_of_some t hr]; rfl

/-- Settles O45: a step in which no command completes is the host's turn, after one access of the wait. -/
theorem stepTakesTheHostsNextEvent : Obligations.StepTakesTheHostsNextEvent := by
  refine ⟨fun s hx hh => ?_, fun s ev rest hx hh => ?_, fun s x ev rest hx hh hev hwait => ?_⟩
  · rw [step_of_idle hx, hostTurn_of_nil hh]
  · rw [step_of_idle hx, hostTurn_of_cons hh]
  · have hwaits : completesNow x s.host = false := by
      rw [Bool.eq_false_iff, ne_eq, completesNow_iff]
      simp [hh, hev, hwait]
    rw [step_of_waits hx hwaits, hostTurn_of_cons (s := s.passAccess x) hh]
    rfl

end Sys2Proof.Machine
end

section
/-! PROOFS. Register values: reset (O48, O51), the layout of STATUS (O38), and what each command writes and leaves (O56,
O59, O60). -/

namespace Sys2Proof.Machine

/-! Reset -/

theorem State.engine?_reset_eq_some {e : BitVec 4} {g : Engine} (h : State.reset.engine? e = some g) :
    g = Engine.reset e.toNat := by
  simp only [State.engine?, State.reset, List.getElem?_map, Option.map_eq_some_iff] at h
  obtain ⟨i, hi, rfl⟩ := h
  rw [(List.getElem?_eq_some_iff.mp hi).2.symm, List.getElem_range]

theorem standard_valid : Config.standard.Valid := by decide

/-- Settles O48: the engines are `Engine.reset`, and the registers and the configuration hold the literals of R31 and
R6. -/
theorem resetValues : Obligations.ResetValues := by
  refine ⟨rfl, fun e g h => ?_, rfl, rfl, rfl, rfl, rfl, rfl, rfl, by decide, standard_valid, rfl, rfl, rfl, rfl,
    rfl, rfl, rfl, rfl⟩
  rw [State.engine?_reset_eq_some h]
  rfl

/-- Settles O51: the record is sound after reset, and no command executes. -/
theorem invariantAtReset : Obligations.InvariantAtReset := by
  have hsound : State.reset.SoundRecord := ⟨standard_valid, by decide, by decide, fun _ => rfl⟩
  exact hsound.inv_of_idle rfl

/-! STATUS -/

theorem causeCode_lt (c : Cause) : causeCode c < 16 := by
  cases c <;> decide

/-- A field placed above every bit of a word is added to it. -/
theorem toNat_or_shiftLeft {x : Word} {n k : Nat} (hx : x.toNat < 2 ^ k) (hn : n * 2 ^ k < 2 ^ 32) :
    (x ||| BitVec.ofNat 32 n <<< k).toNat = n * 2 ^ k + x.toNat := by
  have hn' : n < 2 ^ 32 := (Nat.le_mul_of_pos_right n (Nat.two_pow_pos k)).trans_lt hn
  rw [BitVec.toNat_or, BitVec.toNat_shiftLeft, BitVec.toNat_ofNat, Nat.mod_eq_of_lt hn', Nat.shiftLeft_eq,
    Nat.mod_eq_of_lt hn, ← Nat.shiftLeft_eq, Nat.or_comm, ← Nat.shiftLeft_add_eq_or_of_lt hx]

/-- STATUS as a number: its fields do not overlap (R28). -/
theorem State.statusWord_toNat (s : State) :
    s.statusWord.toNat = s.bcnt.val * 256 + causeCode s.cause * 16 + s.halted.toNat * 2 + s.busy.toNat := by
  have hbusy : s.busy.toNat < 2 := Bool.toNat_lt _
  have hhalted : s.halted.toNat < 2 := Bool.toNat_lt _
  have hcause := causeCode_lt s.cause
  have hbcnt : s.bcnt.val < 625 := s.bcnt.isLt
  have h0 : (BitVec.ofNat 32 s.busy.toNat).toNat = s.busy.toNat := Nat.mod_eq_of_lt (by omega)
  have h1 := toNat_or_shiftLeft (x := BitVec.ofNat 32 s.busy.toNat) (n := s.halted.toNat) (k := 1)
    (by omega) (by omega)
  have h2 := toNat_or_shiftLeft (n := causeCode s.cause) (k := 4) (h1.trans_lt (by omega)) (by omega)
  have h3 := toNat_or_shiftLeft (n := s.bcnt.val) (k := 8) (h2.trans_lt (by omega)) (by omega)
  rw [State.statusWord, h3, h2, h1, h0]
  omega

/-- Settles O38: each field of STATUS is a quotient and remainder of its value as a number. -/
theorem statusLayout : Obligations.StatusLayout := by
  intro s
  have hstatus := s.statusWord_toNat
  have hbusy : s.busy.toNat < 2 := Bool.toNat_lt _
  have hhalted : s.halted.toNat < 2 := Bool.toNat_lt _
  have hcause := causeCode_lt s.cause
  have hbcnt : s.bcnt.val < 625 := s.bcnt.isLt
  have hfield (i n : Nat) : (s.statusWord.extractLsb' i n).toNat = s.statusWord.toNat / 2 ^ i % 2 ^ n := by
    rw [BitVec.extractLsb'_toNat, Nat.shiftRight_eq_div_pow]
  have hbit (i : Nat) (b : Bool) (h : s.statusWord.toNat / 2 ^ i % 2 = b.toNat) : s.statusWord.getLsbD i = b := by
    rw [← BitVec.testBit_toNat, Nat.testBit_eq_decide_div_mod_eq, h]
    cases b <;> rfl
  refine ⟨hbit 0 _ (by omega), hbit 1 _ (by omega), ?_, ?_, ?_, ?_⟩
  · apply BitVec.eq_of_toNat_eq
    rw [hfield]
    show _ = 0
    omega
  · rw [hfield]
    show _ = causeCode s.cause
    omega
  · rw [hfield]
    omega
  · apply BitVec.eq_of_toNat_eq
    rw [hfield]
    show _ = 0
    omega

/-! What a command writes and what it leaves -/

/-- Settles O56: fault entry writes none of these fields, and no other effect does. -/
theorem frameOfEveryCommand : Obligations.FrameOfEveryCommand := by
  intro i s t ht
  rcases exec_cases i s with ⟨c, -, h⟩ | ⟨e, g, -, -, h⟩ | ⟨e, g, -, -, -, h⟩ | ⟨-, h⟩ | ⟨-, -, h⟩ | ⟨-, -, h⟩ |
      ⟨e, g, -, -, -, h⟩ | ⟨d, src, g, g', -, -, -, -, h⟩ | ⟨-, h⟩ | ⟨-, h⟩ <;> cases h.symm.trans ht
  · simp
  all_goals exact ⟨rfl, rfl, rfl, rfl, rfl, rfl, rfl⟩

theorem State.not_newly_halted {s t : State} {P : Prop} (h : t.halted = s.halted) :
    s.halted = false → t.halted = true → P :=
  fun hs ht => absurd (hs.symm.trans (h.symm.trans ht)) Bool.false_ne_true

/-- Settles O59: fault entry writes neither register; every other effect leaves HALTED. -/
theorem writersOfCountAndResult : Obligations.WritersOfCountAndResult := by
  intro i s t ht
  rcases exec_cases i s with ⟨c, -, h⟩ | ⟨e, g, -, -, h⟩ | ⟨e, g, rfl, -, -, h⟩ | ⟨rfl, h⟩ | ⟨rfl, hb, h⟩ |
      ⟨rfl, hb, h⟩ | ⟨e, g, rfl, -, hb, h⟩ | ⟨d, src, g, g', rfl, -, -, -, h⟩ | ⟨rfl, h⟩ | ⟨rfl, h⟩ <;>
    cases h.symm.trans ht
  · simp
  · exact ⟨.inl rfl, .inl rfl, State.not_newly_halted rfl⟩
  · exact ⟨.inl rfl, .inr (.inl ⟨e, rfl⟩), State.not_newly_halted rfl⟩
  · exact ⟨.inr (.inl ⟨.inl rfl, rfl⟩), .inl rfl, State.not_newly_halted rfl⟩
  · exact ⟨.inr (.inr ⟨.inl rfl, countUp_val (count_ne_full.mp hb)⟩), .inl rfl, State.not_newly_halted rfl⟩
  · exact ⟨.inr (.inr ⟨.inr rfl, countUp_val (count_ne_full.mp hb)⟩), .inl rfl, State.not_newly_halted rfl⟩
  · exact ⟨.inr (.inl ⟨.inr (.inl ⟨e, rfl, count_eq_full.mp hb⟩), rfl⟩), .inl rfl, State.not_newly_halted rfl⟩
  · exact ⟨.inr (.inl ⟨.inr (.inr ⟨d, src, rfl⟩), rfl⟩), .inl rfl, State.not_newly_halted rfl⟩
  · exact ⟨.inl rfl, .inr (.inr (.inl rfl)), State.not_newly_halted rfl⟩
  · exact ⟨.inl rfl, .inr (.inr (.inr rfl)), State.not_newly_halted rfl⟩

/-! State vectors -/

/-- One draw keeps the vector, or twists it when the cursor is 624 (R105). -/
theorem Engine.draw_mt (c : Config) (g : Engine) :
    (g.draw c).2.mt = g.mt ∨ (g.draw c).2.mt = twist c g.mt := by
  by_cases h : g.cur = full
  · exact .inr (by rw [Engine.draw_of_full h])
  · exact .inl (by rw [Engine.draw_of_lt (count_ne_full.mp h)])

/-- At most 624 draws run at most one twist: the cursor comes back to 624 at the earliest after the 624th draw. -/
theorem captureLoop_mt_cur (c : Config) (g : Engine) (buf : WordVec) {k : Nat} (hk : k ≤ 624) :
    ((captureLoop c g buf k).1.mt = g.mt ∧ (captureLoop c g buf k).1.cur.val = g.cur.val + k) ∨
    ((captureLoop c g buf k).1.mt = twist c g.mt ∧ (captureLoop c g buf k).1.cur.val + 624 = g.cur.val + k) := by
  induction k with
  | zero => exact .inl ⟨rfl, rfl⟩
  | succ k ih =>
    have hg : g.cur.val ≤ 624 := by omega
    rw [captureLoop_succ]
    by_cases h : (captureLoop c g buf k).1.cur = full
    · rw [Engine.draw_of_full h]
      have hfull := count_eq_full.mp h
      obtain ⟨hmt, hcur⟩ | ⟨-, hcur⟩ := ih (by omega)
      · exact .inr ⟨congrArg (twist c) hmt, by rw [countUp_val (by decide)]; simp; omega⟩
      · omega
    · have hlt := count_ne_full.mp h
      rw [Engine.draw_of_lt hlt]
      simp only [countUp_val hlt]
      obtain ⟨hmt, hcur⟩ | ⟨hmt, hcur⟩ := ih (by omega)
      · exact .inl ⟨hmt, by omega⟩
      · exact .inr ⟨hmt, by omega⟩

theorem State.engine?_setEngine_eq_some {s : State} {e k : BitVec 4} {g g' : Engine}
    (h : (s.setEngine e g).engine? k = some g') : (k = e ∧ g' = g) ∨ s.engine? k = some g' := by
  by_cases hk : k = e
  · subst hk
    have hlt : k.toNat < s.numEngines := by simpa using State.engine?_lt h
    exact .inl ⟨rfl, Option.some.inj (h.symm.trans (State.engine?_setEngine_of_lt g hlt))⟩
  · exact .inr (by rwa [State.engine?_setEngine_ne hk] at h)

/-- A whole capture keeps the source's vector, or twists it once. -/
theorem captureLoop_mt (c : Config) (g : Engine) (buf : WordVec) :
    (captureLoop c g buf 624).1.mt = g.mt ∨ (captureLoop c g buf 624).1.mt = twist c g.mt :=
  (captureLoop_mt_cur c g buf (Nat.le_refl 624)).imp And.left And.left

/-- Settles O60: an engine's vector changes only where a command replaces the engine, and a draw or a whole capture
twists at most once. -/
theorem stateVectorsAreReplacedWhole : Obligations.StateVectorsAreReplacedWhole := by
  intro i s t k g g' ht hg hg'
  have kept (h : s.engine? k = some g') : g'.mt = g.mt := by rw [Option.some.inj (h.symm.trans hg)]
  rcases exec_cases i s with ⟨c, -, h⟩ | ⟨e, g₀, rfl, -, h⟩ | ⟨e, g₀, rfl, he, -, h⟩ | ⟨-, h⟩ | ⟨-, -, h⟩ |
      ⟨-, -, h⟩ | ⟨e, g₀, rfl, -, -, h⟩ | ⟨d, src, g₀, g₁, rfl, -, hsrc, -, h⟩ | ⟨-, h⟩ | ⟨-, h⟩ <;>
    cases h.symm.trans ht
  · rw [State.engine?_congr (State.raiseFault_engines s c _)] at hg'
    exact .inl (kept hg')
  · obtain ⟨rfl, rfl⟩ | h := State.engine?_setEngine_eq_some hg'
    · exact .inr (.inr (.inl ⟨rfl, rfl⟩))
    · exact .inl (kept h)
  · obtain ⟨rfl, rfl⟩ | h := State.engine?_setEngine_eq_some (s := s) hg'
    · cases hg.symm.trans he
      exact (Engine.draw_mt s.config g).imp_right fun h => .inl ⟨.inl rfl, h⟩
    · exact .inl (kept h)
  · exact .inl (kept hg')
  · exact .inl (kept hg')
  · exact .inl (kept hg')
  · obtain ⟨rfl, rfl⟩ | h := State.engine?_setEngine_eq_some (s := s) hg'
    · exact .inr (.inr (.inr (.inl ⟨rfl, rfl⟩)))
    · exact .inl (kept h)
  · have hmt := captureLoop_mt s.config g₀ s.buf
    generalize captureLoop s.config g₀ s.buf 624 = r at hg' hmt ⊢
    obtain ⟨rfl, rfl⟩ | h := State.engine?_setEngine_eq_some hg'
    · exact .inr (.inr (.inr (.inr ⟨src, rfl, rfl⟩)))
    obtain ⟨rfl, rfl⟩ | h := State.engine?_setEngine_eq_some (s := s) h
    · cases hg.symm.trans hsrc
      exact hmt.imp_right fun h => .inl ⟨.inr ⟨d, rfl⟩, h⟩
    · exact .inl (kept h)
  · exact .inl (kept hg')
  · exact .inl (kept hg')

end Sys2Proof.Machine
end

section
/-! PROOFS. Noninterference: no command reads or writes an engine it does not name (O54), and no step reads a register
that holds "no value" (O55). Both follow from one account of what a command reads and writes. -/

namespace Sys2Proof.Machine

/-! What a command reads and writes -/

/-- Engine `e` exists in both states, with the same values, or in neither. -/
def SameEngine (e : BitVec 4) (s t : State) : Prop :=
  (s.engine? e = none ∧ t.engine? e = none) ∨
  ∃ g g', s.engine? e = some g ∧ t.engine? e = some g' ∧ g.SameValues g'

/-- Related states agree on everything command `i` reads, and every operation `i` may do keeps them related. -/
structure Respects (i : Instr) (R : State → State → Prop) : Prop where
  config      : ∀ {s t}, R s t → t.config = s.config
  operand     : ∀ {s t}, R s t → t.operand = s.operand
  bcnt        : ∀ {s t}, R s t → t.bcnt = s.bcnt
  fullBuffer  : ∀ {s t}, R s t → s.bcnt = full → t.buf = s.buf
  engine      : ∀ {s t e}, R s t → e ∈ i.engines → SameEngine e s t
  raiseFault  : ∀ {s t} c w, R s t → R (s.raiseFault c w) (t.raiseFault c w)
  setEngine   : ∀ {s t e} g, R s t → e ∈ i.engines → R (s.setEngine e g) (t.setEngine e g)
  setResult   : ∀ {s t} w, R s t → R (s.setResult w) (t.setResult w)
  clearBuffer : ∀ {s t}, R s t → R s.clearBuffer t.clearBuffer
  pushWord    : ∀ {s t} w, R s t → s.bcnt ≠ full → R (s.pushWord w) (t.pushWord w)
  setBuffer   : ∀ {s t} b n, R s t → R (s.setBuffer b n) (t.setBuffer b n)

/-- From related states a command answers related states. -/
theorem Respects.exec {i : Instr} {R : State → State → Prop} (h : Respects i R) {s t : State} (hst : R s t) :
    ∃ s' t', exec i s = .next s' ∧ exec i t = .next t' ∧ R s' t' := by
  have hbt {n : Count} (hb : s.bcnt = n) : t.bcnt = n := (h.bcnt hst).trans hb
  have hbt' {n : Count} (hb : s.bcnt ≠ n) : t.bcnt ≠ n := h.bcnt hst ▸ hb
  cases i with
  | seed e =>
    have he : e ∈ (Instr.seed e).engines := List.mem_singleton_self e
    obtain ⟨hs, ht⟩ | ⟨g, g', hs, ht, -⟩ := h.engine hst he
    · exact ⟨_, _, execSeed_of_none hs, execSeed_of_none ht, h.raiseFault _ _ hst⟩
    · refine ⟨_, _, execSeed_of_engine hs, execSeed_of_engine ht, ?_⟩
      rw [h.config hst, h.operand hst]
      exact h.setEngine _ hst he
  | next e =>
    have he : e ∈ (Instr.next e).engines := List.mem_singleton_self e
    obtain ⟨hs, ht⟩ | ⟨g, g', hs, ht, hlife, hsame⟩ := h.engine hst he
    · exact ⟨_, _, execNext_of_none hs, execNext_of_none ht, h.raiseFault _ _ hst⟩
    cases hl : g.life with
    | uninit =>
      exact ⟨_, _, execNext_of_uninit hs hl, execNext_of_uninit ht (hlife.symm.trans hl), h.raiseFault _ _ hst⟩
    | advancing =>
      obtain rfl := hsame hl
      refine ⟨_, _, execNext_of_advancing hs hl, execNext_of_advancing ht hl, ?_⟩
      rw [h.config hst]
      exact h.setResult _ (h.setEngine _ hst he)
  | bufClear => exact ⟨_, _, rfl, rfl, h.clearBuffer hst⟩
  | pushRaw =>
    by_cases hb : s.bcnt = full
    · exact ⟨_, _, execPushRaw_of_full hb, execPushRaw_of_full (hbt hb), h.raiseFault _ _ hst⟩
    · refine ⟨_, _, execPushRaw_of_room hb, execPushRaw_of_room (hbt' hb), ?_⟩
      rw [h.operand hst]
      exact h.pushWord _ hst hb
  | pushOut =>
    by_cases hb : s.bcnt = full
    · exact ⟨_, _, execPushOut_of_full hb, execPushOut_of_full (hbt hb), h.raiseFault _ _ hst⟩
    · refine ⟨_, _, execPushOut_of_room hb, execPushOut_of_room (hbt' hb), ?_⟩
      rw [h.config hst, h.operand hst]
      exact h.pushWord _ hst hb
  | inject e =>
    have he : e ∈ (Instr.inject e).engines := List.mem_singleton_self e
    obtain ⟨hs, ht⟩ | ⟨g, g', hs, ht, -⟩ := h.engine hst he
    · exact ⟨_, _, execInject_of_none hs, execInject_of_none ht, h.raiseFault _ _ hst⟩
    by_cases hb : s.bcnt = full
    · refine ⟨_, _, execInject_of_full hs hb, execInject_of_full ht (hbt hb), ?_⟩
      rw [h.fullBuffer hst hb]
      exact h.clearBuffer (h.setEngine _ hst he)
    · exact ⟨_, _, execInject_of_short hs hb, execInject_of_short ht (hbt' hb), h.raiseFault _ _ hst⟩
  | recover d src =>
    have hd : d ∈ (Instr.recover d src).engines := List.mem_cons_self
    have hsrc : src ∈ (Instr.recover d src).engines := List.mem_cons_of_mem d (List.mem_singleton_self src)
    obtain ⟨hds, hdt⟩ | ⟨k, k', hds, hdt, -⟩ := h.engine hst hd
    · exact ⟨_, _, execRecover_of_none (.inl hds), execRecover_of_none (.inl hdt), h.raiseFault _ _ hst⟩
    obtain ⟨hs, ht⟩ | ⟨g, g', hs, ht, hlife, hsame⟩ := h.engine hst hsrc
    · exact ⟨_, _, execRecover_of_none (.inr hs), execRecover_of_none (.inr ht), h.raiseFault _ _ hst⟩
    cases hl : g.life with
    | uninit =>
      exact ⟨_, _, execRecover_of_uninit hds hs hl, execRecover_of_uninit hdt ht (hlife.symm.trans hl),
        h.raiseFault _ _ hst⟩
    | advancing =>
      obtain rfl := hsame hl
      refine ⟨_, _, execRecover_of_advancing hds hs hl, execRecover_of_advancing hdt ht hl, ?_⟩
      rw [h.config hst, captureLoop_full_congr s.config g t.buf s.buf]
      exact h.setEngine _ (h.setBuffer _ _ (h.setEngine _ hst hsrc)) hd
  | temper =>
    refine ⟨_, _, rfl, rfl, ?_⟩
    rw [h.config hst, h.operand hst]
    exact h.setResult _ hst
  | untemper =>
    refine ⟨_, _, rfl, rfl, ?_⟩
    rw [h.config hst, h.operand hst]
    exact h.setResult _ hst

/-! Engines a command does not name -/

theorem Engine.SameValues.refl (g : Engine) : g.SameValues g := ⟨rfl, fun _ => rfl⟩

theorem sameEngine_of_eq {e : BitVec 4} {s t : State} (h : t.engine? e = s.engine? e) : SameEngine e s t := by
  cases hs : s.engine? e with
  | none => exact .inl ⟨hs, h.trans hs⟩
  | some g => exact .inr ⟨g, g, hs, h.trans hs, .refl g⟩

theorem State.setEngine_same {s : State} {e : BitVec 4} {g : Engine} (h : s.engine? e = some g) :
    s.setEngine e g = s := by
  obtain ⟨hlt, rfl⟩ := List.getElem?_eq_some_iff.mp h
  rw [State.setEngine, List.set_getElem_self]

theorem State.raiseFault_setEngine (s : State) (k : BitVec 4) (g : Engine) (c : Cause) (w : Word) :
    (s.setEngine k g).raiseFault c w = (s.raiseFault c w).setEngine k g := by
  unfold State.raiseFault
  rw [State.setEngine_halted]
  split <;> rfl

/-- `t` is `s` with engine `k` replaced by `g`. -/
def DiffersInEngine (k : BitVec 4) (g : Engine) (s t : State) : Prop := t = s.setEngine k g

theorem respects_differsInEngine {i : Instr} {k : BitVec 4} (hk : k ∉ i.engines) (g : Engine) :
    Respects i (DiffersInEngine k g) where
  config := by rintro s _ rfl; rfl
  operand := by rintro s _ rfl; rfl
  bcnt := by rintro s _ rfl; rfl
  fullBuffer := by rintro s _ rfl -; rfl
  engine := by
    rintro s _ e rfl he
    exact sameEngine_of_eq (State.engine?_setEngine_ne fun h => hk (h ▸ he))
  raiseFault := by rintro s _ c w rfl; exact s.raiseFault_setEngine k g c w
  setEngine := by rintro s _ e h rfl he; exact State.setEngine_comm fun h => hk (h ▸ he)
  setResult := by rintro s _ w rfl; rfl
  clearBuffer := by rintro s _ rfl; rfl
  pushWord := by rintro s _ w rfl -; rfl
  setBuffer := by rintro s _ b n rfl; rfl

theorem exec_setEngine_of_not_named {i : Instr} {k : BitVec 4} {s t : State} (hk : k ∉ i.engines)
    (ht : exec i s = .next t) (g : Engine) : exec i (s.setEngine k g) = .next (t.setEngine k g) := by
  obtain ⟨_, _, hs, ht', rfl⟩ := (respects_differsInEngine hk g).exec (s := s) rfl
  cases ht.symm.trans hs
  exact ht'

theorem exec_numEngines {i : Instr} {s t : State} (ht : exec i s = .next t) : t.numEngines = s.numEngines := by
  obtain ⟨u, hu, hcase⟩ := exec_faults_or_keeps_record i s
  cases ht.symm.trans hu
  rcases hcase with ⟨c, -, rfl⟩ | hsame
  · exact State.numEngines_congr (s.raiseFault_engines c _)
  · exact hsame.numEngines

/-- Settles O54: the command commutes with replacing engine `k`; replacing `k` by itself shows that it leaves `k`. -/
theorem unnamedEnginesAreUntouched : Obligations.UnnamedEnginesAreUntouched := by
  intro i s t k hk ht
  have hn := exec_numEngines ht
  refine ⟨hn, ?_, exec_setEngine_of_not_named hk ht⟩
  cases hs : s.engine? k with
  | none => rwa [State.engine?_eq_none, hn, ← State.engine?_eq_none]
  | some g =>
    have hcommutes := exec_setEngine_of_not_named hk ht g
    rw [State.setEngine_same hs, ht] at hcommutes
    have hsame : t = t.setEngine k g := Host.Outcome.next.inj hcommutes
    rw [hsame]
    exact State.engine?_setEngine_of_lt g (hn ▸ State.engine?_lt hs)

/-! Registers that hold "no value" -/

theorem State.SameValues.refl (s : State) : s.SameValues s :=
  ⟨rfl, List.forall₂_same.mpr fun g _ => .refl g, fun _ _ => rfl⟩

/-- `s` with its engines and the words of its buffer replaced. -/
def State.withStore (s : State) (es : List Engine) (b : WordVec) : State := { s with engines := es, buf := b }

/-- States with the same values are one state but for its engines and its buffer. -/
theorem State.SameValues.exists_eq {s t : State} (h : s.SameValues t) : ∃ es b, t = s.withStore es b :=
  ⟨t.engines, t.buf, h.1.symm⟩

theorem State.SameValues.config {s t : State} (h : s.SameValues t) : t.config = s.config := by
  obtain ⟨_, _, rfl⟩ := h.exists_eq
  rfl

theorem State.SameValues.operand {s t : State} (h : s.SameValues t) : t.operand = s.operand := by
  obtain ⟨_, _, rfl⟩ := h.exists_eq
  rfl

theorem State.SameValues.bcnt {s t : State} (h : s.SameValues t) : t.bcnt = s.bcnt := by
  obtain ⟨_, _, rfl⟩ := h.exists_eq
  rfl

theorem State.SameValues.halted {s t : State} (h : s.SameValues t) : t.halted = s.halted := by
  obtain ⟨_, _, rfl⟩ := h.exists_eq
  rfl

theorem State.SameValues.executing {s t : State} (h : s.SameValues t) : t.executing = s.executing := by
  obtain ⟨_, _, rfl⟩ := h.exists_eq
  rfl

theorem State.SameValues.host {s t : State} (h : s.SameValues t) : t.host = s.host := by
  obtain ⟨_, _, rfl⟩ := h.exists_eq
  rfl

theorem State.SameValues.numEngines {s t : State} (h : s.SameValues t) : t.numEngines = s.numEngines :=
  h.2.1.length_eq.symm

theorem State.SameValues.sameEngine {s t : State} (h : s.SameValues t) (e : BitVec 4) : SameEngine e s t := by
  have hn := h.numEngines
  by_cases he : e.toNat < s.numEngines
  · have he' : e.toNat < t.numEngines := hn ▸ he
    exact .inr ⟨s.engines[e.toNat], t.engines[e.toNat], List.getElem?_eq_getElem he, List.getElem?_eq_getElem he',
      h.2.1.get he he'⟩
  · exact .inl ⟨State.engine?_eq_none.mpr (by omega), State.engine?_eq_none.mpr (by omega)⟩

/-- `f` neither reads nor writes the engines and the buffer's words. -/
def Blind (f : State → State) : Prop :=
  ∀ s es b, f (s.withStore es b) = (f s).withStore es b

/-- A blind operation that does not raise BCNT keeps states with the same values so. -/
theorem State.SameValues.map {f : State → State} (hf : Blind f) {s t : State} (h : s.SameValues t)
    (hb : (f s).bcnt ≤ s.bcnt) : (f s).SameValues (f t) := by
  obtain ⟨es, b, rfl⟩ := h.exists_eq
  obtain ⟨-, hes, hbuf⟩ := h
  have hfs : f s = (f s).withStore s.engines s.buf := hf s s.engines s.buf
  rw [hf s es b]
  refine ⟨rfl, ?_, fun j hj => ?_⟩
  · rw [hfs]
    exact hes
  · rw [hfs]
    exact hbuf j (hj.trans_le hb)

theorem State.blind_raiseFault (c : Cause) (w : Word) : Blind (State.raiseFault · c w) := by
  intro s es b
  cases hh : s.halted with
  | true => simp only [State.raiseFault, State.withStore, hh, if_true]
  | false => simp only [State.raiseFault, State.withStore, hh]; rfl

theorem State.blind_retire (x : Executing) : Blind (State.retire · x) := by
  intro s es b
  cases hr : x.refused with
  | none => simp only [State.retire_of_none _ hr]; rfl
  | some w =>
    simp only [State.retire_of_some _ hr]
    exact State.blind_raiseFault .overrun w { s with executing := none } es b

theorem State.blind_hostRead (r : WindowReg) : Blind (State.hostRead · r) := by
  intro s es b
  cases r <;> rfl

theorem State.blind_writeCmd (w : Word) : Blind (State.writeCmd · w) := by
  intro s es b
  cases hh : s.halted || s.inReset with
  | true => simp only [State.writeCmd, State.withStore, hh, if_true]
  | false => cases hx : s.executing <;> simp only [State.writeCmd, State.withStore, hh, hx] <;> rfl

theorem State.blind_hostWrite (r : WindowReg) (w : Word) : Blind (State.hostWrite · r w) := by
  cases r with
  | cmd => exact State.blind_writeCmd w
  | _ => exact fun _ _ _ => rfl

theorem forall₂_set {α β : Type} {R : α → β → Prop} {l : List α} {m : List β} (h : List.Forall₂ R l m) {a : α} {b : β}
    (hab : R a b) (n : Nat) : List.Forall₂ R (l.set n a) (m.set n b) := by
  induction h generalizing n with
  | nil => exact .nil
  | cons hd tl ih =>
    cases n with
    | zero => exact .cons hab tl
    | succ n => exact .cons hd (ih n)

theorem State.SameValues.setEngine {s t : State} (h : s.SameValues t) (e : BitVec 4) (g : Engine) :
    (s.setEngine e g).SameValues (t.setEngine e g) := by
  obtain ⟨es, b, rfl⟩ := h.exists_eq
  exact ⟨rfl, forall₂_set h.2.1 (.refl g) e.toNat, h.2.2⟩

/-- The pushed word is the same in both buffers, so they agree on one word more. -/
theorem State.SameValues.pushWord {s t : State} (h : s.SameValues t) (w : Word) (hb : s.bcnt ≠ full) :
    (s.pushWord w).SameValues (t.pushWord w) := by
  obtain ⟨es, b, rfl⟩ := h.exists_eq
  have hlt := count_ne_full.mp hb
  refine ⟨rfl, h.2.1, fun j hj => ?_⟩
  rw [State.pushWord_bcnt, countUp_val hlt] at hj
  show wordAt (setWord s.buf s.bcnt.val w) j = wordAt (setWord b s.bcnt.val w) j
  rw [wordAt_setWord_of_lt _ _ hlt (by omega), wordAt_setWord_of_lt _ _ hlt (by omega)]
  split
  · rfl
  · exact h.2.2 j (by omega)

theorem State.SameValues.setBuffer {s t : State} (h : s.SameValues t) (b : WordVec) (n : Count) :
    (s.setBuffer b n).SameValues (t.setBuffer b n) := by
  obtain ⟨es, b', rfl⟩ := h.exists_eq
  exact ⟨rfl, h.2.1, fun _ _ => rfl⟩

theorem State.SameValues.fullBuffer {s t : State} (h : s.SameValues t) (hb : s.bcnt = full) : t.buf = s.buf :=
  wordVec_ext fun j hj => (h.2.2 j (by rwa [hb])).symm

theorem State.SameValues.raiseFault {s t : State} (h : s.SameValues t) (c : Cause) (w : Word) :
    (s.raiseFault c w).SameValues (t.raiseFault c w) :=
  h.map (State.blind_raiseFault c w) (by simp)

theorem respects_sameValues (i : Instr) : Respects i State.SameValues where
  config := State.SameValues.config
  operand := State.SameValues.operand
  bcnt := State.SameValues.bcnt
  fullBuffer := State.SameValues.fullBuffer
  engine h _ := h.sameEngine _
  raiseFault c w h := h.raiseFault c w
  setEngine g h _ := h.setEngine _ g
  setResult w h := h.map (f := (State.setResult · w)) (fun _ _ _ => rfl) le_rfl
  clearBuffer h := h.map (fun _ _ _ => rfl) (Nat.zero_le _)
  pushWord w h hb := h.pushWord w hb
  setBuffer b n h := h.setBuffer b n

@[simp] theorem State.hostWrite_bcnt (s : State) (r : WindowReg) (w : Word) : (s.hostWrite r w).bcnt = s.bcnt := by
  cases r with
  | cmd => exact s.writeCmd_bcnt w
  | _ => rfl

theorem State.SameValues.resetBlock {s t : State} (h : s.SameValues t) : s.resetBlock.SameValues t.resetBlock := by
  have hn := h.numEngines
  have heq : t.resetBlock = s.resetBlock := by
    unfold State.resetBlock
    rw [hn]
    obtain ⟨_, _, rfl⟩ := h.exists_eq
    rfl
  rw [heq]
  exact .refl _

/-- An event of the host acts on states with the same values alike: a read returns the same, a write writes the same. -/
theorem State.SameValues.hostEvent {s t : State} (h : s.SameValues t) (ev : HostEvent) :
    SameOutcome (hostEvent ev s) (hostEvent ev t) := by
  cases ev with
  | read width addr =>
    simp only [Machine.hostEvent, h.config]
    cases admitted s.config.base width addr with
    | none => rfl
    | some r => exact h.map (State.blind_hostRead r) le_rfl
  | write width addr value =>
    simp only [Machine.hostEvent, h.config]
    cases admitted s.config.base width addr with
    | none => rfl
    | some r => exact h.map (State.blind_hostWrite r value) (by simp)
  | awaitIdle => exact h
  | assertReset => exact h.resetBlock
  | releaseReset => exact h.map (f := fun u => { u with inReset := false }) (fun _ _ _ => rfl) le_rfl

theorem State.SameValues.hostTurn {s t : State} (h : s.SameValues t) : SameOutcome (hostTurn s) (hostTurn t) := by
  cases hs : s.host with
  | nil =>
    rw [hostTurn_of_nil hs, hostTurn_of_nil (h.host.trans hs)]
    exact h
  | cons ev rest =>
    rw [hostTurn_of_cons hs, hostTurn_of_cons (h.host.trans hs)]
    have hrest := h.map (f := fun u => { u with host := rest }) (fun _ _ _ => rfl) le_rfl
    exact hrest.hostEvent ev

/-- The executing command reads nothing that holds no value, and completes. -/
theorem State.SameValues.runCommand {s t : State} (h : s.SameValues t) (x : Executing) :
    ∃ s' t', runCommand x s = .next s' ∧ runCommand x t = .next t' ∧ s'.SameValues t' := by
  have hn := h.numEngines
  rcases runCommand_cases x s with ⟨hh, hs⟩ | ⟨c, hh, hd, hs⟩ | ⟨i, hh, hd, hs⟩
  · exact ⟨_, _, hs, runCommand_of_halted x (h.halted.trans hh), h⟩
  · exact ⟨_, _, hs, runCommand_of_error (h.halted.trans hh) (hn ▸ hd), h.raiseFault c x.cmd⟩
  · rw [hs, runCommand_of_ok (h.halted.trans hh) (hn ▸ hd)]
    exact (respects_sameValues i).exec h

/-- Settles O55: a completing command and an event of the host each act alike on states with the same values. -/
theorem valuesNeverWrittenAreNeverRead : Obligations.ValuesNeverWrittenAreNeverRead := by
  intro s t h
  cases hx : s.executing with
  | none =>
    rw [step_of_idle hx, step_of_idle (h.executing.trans hx)]
    exact h.hostTurn
  | some x =>
    cases hc : completesNow x s.host with
    | true =>
      obtain ⟨s', t', hs, ht, hst⟩ := h.runCommand x
      rw [step_of_completes hx hc, step_of_completes (h.executing.trans hx) (h.host ▸ hc), complete_of_next hs,
        complete_of_next ht]
      exact hst.map (State.blind_retire x) (by simp)
    | false =>
      rw [step_of_waits hx hc, step_of_waits (h.executing.trans hx) (h.host ▸ hc)]
      have hpass := h.map (f := (State.passAccess · x)) (fun _ _ _ => rfl) le_rfl
      exact hpass.hostTurn

end Sys2Proof.Machine
end

section
/-! PROOFS. The register window: what a read returns (O39, O40), what a write does (O41), and which accesses have no step
(O42). -/

namespace Sys2Proof.Machine

/-! Accesses that R42 admits, and those it does not -/

theorem hostEvent_read_register (s : State) {off : Nat} (h : off < 0x40) (ha : off % 4 = 0) :
    hostEvent (.read 32 (s.config.base + off)) s = .next (s.hostRead (windowReg off)) := by
  simp only [hostEvent, admitted_register s.config.base off h ha]

theorem hostEvent_write_register (s : State) (w : Word) {off : Nat} (h : off < 0x40) (ha : off % 4 = 0) :
    hostEvent (.write 32 (s.config.base + off) w) s = .next (s.hostWrite (windowReg off) w) := by
  simp only [hostEvent, admitted_register s.config.base off h ha]

theorem admitted_eq_none {base width addr : Nat}
    (h : width ≠ 32 ∨ addr < base ∨ base + 0x40 ≤ addr ∨ (addr - base) % 4 ≠ 0) :
    admitted base width addr = none :=
  if_neg (by omega)

/-- Settles O42: such an access reaches no register. -/
theorem accessesNotAdmitted : Obligations.AccessesNotAdmitted := by
  intro s width addr w h
  have hnone := admitted_eq_none h
  constructor
  · simp only [hostEvent, hnone]
  · simp only [hostEvent, hnone]

/-! Reads -/

/-- The value read at each offset (R41); only RESULT's depends on BUSY. -/
theorem State.readReg_windowReg (s : State) (off : Nat) :
    s.readReg (windowReg off) =
      if off = 0x04 then s.data
      else if off = 0x08 then (if s.busy then Config.freeResult s.draws else s.result)
      else if off = 0x0C then s.statusWord
      else if off = 0x10 then s.faultCmd else 0 := by
  unfold windowReg
  split
  case h_6 h4 h8 hC h10 => rw [if_neg h4, if_neg h8, if_neg hC, if_neg h10]; rfl
  all_goals rfl

theorem windowReg_eq_result_iff {off : Nat} : windowReg off = .result ↔ off = 0x08 := by
  unfold windowReg
  split <;> simp_all

/-- A read that draws no free value only records the value read (R44, R183). -/
theorem State.hostRead_of_no_draw {s : State} {r : WindowReg} (h : ¬(r = .result ∧ s.busy)) :
    s.hostRead r = { s with observed := s.observed ++ [s.readReg r] } := by
  rw [State.hostRead, if_neg h]

theorem State.busy_of_idle {s : State} (h : s.executing = none) : s.busy = false := by
  rw [State.busy, h]; rfl

theorem State.busy_of_executing {s : State} {x : Executing} (h : s.executing = some x) : s.busy = true := by
  rw [State.busy, h]; rfl

/-- Settles O39: an idle block draws no free value, and RESULT reads its own value. -/
theorem windowReadsWhileIdle : Obligations.WindowReadsWhileIdle := by
  intro s off hx hoff halign
  have hbusy := State.busy_of_idle hx
  have hread := s.readReg_windowReg off
  rw [hbusy, if_neg Bool.false_ne_true] at hread
  rw [hostEvent_read_register s hoff halign, State.hostRead_of_no_draw (by simp [hbusy]), hread]

/-- Settles O40: only a read of RESULT, at offset 8, sees that the block is busy. -/
theorem windowReadsWhileBusy : Obligations.WindowReadsWhileBusy := by
  intro s x off hx hoff halign
  have hbusy := State.busy_of_executing hx
  refine ⟨?_, fun h8 => ?_, fun h8 => ?_⟩
  · obtain ⟨hbit, -⟩ := statusLayout s
    exact hbit.trans hbusy
  · have hread := s.readReg_windowReg off
    rw [if_neg h8] at hread
    have hnodraw : ¬(windowReg off = .result ∧ s.busy) := fun ⟨hr, _⟩ => h8 (windowReg_eq_result_iff.mp hr)
    rw [hostEvent_read_register s hoff halign, State.hostRead_of_no_draw hnodraw, hread]
  · have hdraw : windowReg off = .result ∧ s.busy := ⟨windowReg_eq_result_iff.mpr h8, hbusy⟩
    refine ⟨s.readReg (windowReg off), ?_⟩
    rw [hostEvent_read_register s hoff halign, State.hostRead, if_pos hdraw]

/-! Writes -/

theorem State.writeCmd_of_idle {s : State} (w : Word) (hx : s.executing = none) (hh : s.halted = false)
    (hr : s.inReset = false) :
    s.writeCmd w =
      { s with
        executing := some { cmd := w, operand := s.data, wait := Config.accessesWhileBusy s.draws, refused := none }
        draws     := s.draws + 1 } := by
  simp [State.writeCmd, hh, hr, hx]

theorem State.writeCmd_of_executing {s : State} {x : Executing} (w : Word) (hx : s.executing = some x)
    (hh : s.halted = false) (hr : s.inReset = false) :
    s.writeCmd w = { s with executing := some { x with refused := some (x.refused.getD w) } } := by
  simp [State.writeCmd, hh, hr, hx]

theorem State.writeCmd_ignored {s : State} (w : Word) (h : s.halted = true ∨ s.inReset = true) : s.writeCmd w = s :=
  if_pos (by simpa using h)

/-- From RESULT on, no register of the window can be written (R44, R45). -/
theorem State.hostWrite_ignored (s : State) (w : Word) {off : Nat} (h : 0x08 ≤ off) :
    s.hostWrite (windowReg off) w = s := by
  unfold windowReg
  split
  case h_1 | h_2 => omega
  all_goals rfl

/-- Settles O41: a write at each offset, and a CMD write in each state of the sequencer. -/
theorem windowWrites : Obligations.WindowWrites := by
  intro s w
  have hcmd : hostEvent (.write 32 s.config.base w) s = .next (s.writeCmd w) :=
    hostEvent_write_register s w (off := 0x00) (by decide) (by decide)
  refine ⟨fun hx hh hr => ⟨Config.accessesWhileBusy s.draws, ?_⟩, fun x hx hh hr => ?_, fun h => ?_, ?_,
    fun off hlow hoff halign => ?_⟩
  · rw [hcmd, State.writeCmd_of_idle w hx hh hr]
  · rw [hcmd, State.writeCmd_of_executing w hx hh hr]
  · rw [hcmd, State.writeCmd_ignored w h]
  · exact hostEvent_write_register s w (off := 0x04) (by decide) (by decide)
  · rw [hostEvent_write_register s w hoff halign, s.hostWrite_ignored w hlow]

end Sys2Proof.Machine
end

section
/-! PROOFS. The CMD word: a command's fields, its word as a number, and the one decoder answer for each word (O1 to O4),
and the table of encodings (O7). -/

namespace Sys2Proof

/-! The fields of a command -/

/-- The operation code of a command (R62). -/
def Instr.opcode : Instr → BitVec 8
  | .seed _      => 0x01
  | .next _      => 0x02
  | .bufClear    => 0x03
  | .pushRaw     => 0x04
  | .pushOut     => 0x05
  | .inject _    => 0x06
  | .recover _ _ => 0x07
  | .temper      => 0x08
  | .untemper    => 0x09

/-- The field EA of a command's word, 0 where the command does not use it (R61, R65). -/
def Instr.ea : Instr → BitVec 4
  | .seed e | .next e | .inject e | .recover e _ => e
  | .bufClear | .pushRaw | .pushOut | .temper | .untemper => 0

/-- The field EB of a command's word, 0 where the command does not use it (R61, R65). -/
def Instr.eb : Instr → BitVec 4
  | .recover _ e => e
  | .seed _ | .next _ | .inject _ | .bufClear | .pushRaw | .pushOut | .temper | .untemper => 0

theorem placeEA_eq (e : BitVec 4) : placeEA e = BitVec.ofNat 32 e.toNat <<< 8 := by
  rw [placeEA, BitVec.ofNat_toNat]

theorem placeEB_eq (e : BitVec 4) : placeEB e = BitVec.ofNat 32 e.toNat <<< 12 := by
  rw [placeEB, BitVec.ofNat_toNat]

theorem toNat_or_placeEA {x : Word} (hx : x.toNat < 256) (e : BitVec 4) :
    (x ||| placeEA e).toNat = x.toNat + 256 * e.toNat := by
  rw [placeEA_eq, Machine.toNat_or_shiftLeft (k := 8) hx (by omega)]
  omega

theorem toNat_or_placeEB {x : Word} (hx : x.toNat < 4096) (e : BitVec 4) :
    (x ||| placeEB e).toNat = x.toNat + 4096 * e.toNat := by
  rw [placeEB_eq, Machine.toNat_or_shiftLeft (k := 12) hx (by omega)]
  omega

/-- The CMD word of a command as a number: its fields do not overlap (R61). -/
theorem encode_toNat (i : Instr) :
    (encode i).toNat = i.opcode.toNat + 256 * i.ea.toNat + 4096 * i.eb.toNat := by
  cases i with
  | seed e | next e | inject e => exact toNat_or_placeEA (by decide) e
  | recover d s =>
    have hd : (0x00000007#32 ||| placeEA d).toNat = 7 + 256 * d.toNat := toNat_or_placeEA (by decide) d
    show (0x00000007#32 ||| placeEA d ||| placeEB s).toNat = 7 + 256 * d.toNat + 4096 * s.toNat
    rw [toNat_or_placeEB (by omega), hd]
  | bufClear | pushRaw | pushOut | temper | untemper => rfl

/-- A word is the word of a command exactly when it has the command's fields. -/
theorem encode_eq_iff {i : Instr} {cmd : Word} :
    encode i = cmd ↔ rsvField cmd = 0 ∧ opField cmd = i.opcode ∧ eaField cmd = i.ea ∧ ebField cmd = i.eb := by
  have hi := encode_toNat i
  have hop := i.opcode.isLt
  have hea := i.ea.isLt
  have heb := i.eb.isLt
  simp only [← BitVec.toNat_inj, rsvField_toNat, opField_toNat, eaField_toNat, ebField_toNat,
    show (0 : BitVec 16).toNat = 0 from rfl]
  omega

/-! The decoder -/

/-- The ILLEGAL_CMD checks (R65): RSV is 0, the opcode map has the code, and the engine fields it does not use are 0. -/
theorem decodeFields_eq_some_iff {cmd : Word} {i : Instr} :
    decodeFields cmd = some i ↔
      rsvField cmd = 0 ∧ commandOf (opField cmd) (eaField cmd) (ebField cmd) = some i ∧
      (usesNoEngine (opField cmd) = true → eaField cmd = 0 ∧ ebField cmd = 0) ∧
      (usesOneEngine (opField cmd) = true → ebField cmd = 0) := by
  have hno : (usesNoEngine (opField cmd) && (eaField cmd != 0 || ebField cmd != 0)) = true ↔
      ¬(usesNoEngine (opField cmd) = true → eaField cmd = 0 ∧ ebField cmd = 0) := by
    simp only [Bool.and_eq_true, Bool.or_eq_true, bne_iff_ne, ne_eq, Classical.not_imp, not_and_or]
  have hone : (usesOneEngine (opField cmd) && ebField cmd != 0) = true ↔
      ¬(usesOneEngine (opField cmd) = true → ebField cmd = 0) := by
    simp only [Bool.and_eq_true, bne_iff_ne, ne_eq, Classical.not_imp]
  simp only [decodeFields, hno, hone]
  split
  case isTrue hrsv => exact iff_of_false nofun fun h => hrsv h.1
  case isFalse hrsv =>
  split
  case h_1 hnone => simp [hnone]
  case h_2 j hj =>
  split
  case isTrue hno => exact iff_of_false nofun fun ⟨_, _, h, _⟩ => hno h
  case isFalse hno =>
  split
  case isTrue hone => exact iff_of_false nofun fun ⟨_, _, _, h⟩ => hone h
  case isFalse hone =>
  rw [hj]
  exact ⟨fun h => ⟨not_not.mp hrsv, h, not_not.mp hno, not_not.mp hone⟩, fun ⟨_, h, _, _⟩ => h⟩

theorem commandOf_opcode (i : Instr) : commandOf i.opcode i.ea i.eb = some i := by
  cases i <;> rfl

/-- A command of the opcode map has the operation code it was looked up by. -/
theorem opcode_of_commandOf {op : BitVec 8} {ea eb : BitVec 4} {i : Instr} (h : commandOf op ea eb = some i) :
    op = i.opcode := by
  unfold commandOf at h
  split at h
  case h_10 => cases h
  all_goals cases h; exact BitVec.eq_of_toNat_eq ‹_›

/-- A word that passes the ILLEGAL_CMD checks is spelt as its command is: it has the command's engines in the fields the
command uses, and 0 in the others. -/
theorem decodeFields_eq_some_iff_encode {cmd : Word} {i : Instr} : decodeFields cmd = some i ↔ encode i = cmd := by
  rw [decodeFields_eq_some_iff, encode_eq_iff]
  constructor
  · rintro ⟨hrsv, hcmd, hno, hone⟩
    have hop := opcode_of_commandOf hcmd
    rw [hop] at hcmd hno hone
    refine ⟨hrsv, hop, ?_⟩
    cases i with
    | seed e | next e | inject e => cases hcmd; exact ⟨rfl, hone rfl⟩
    | recover d s => cases hcmd; exact ⟨rfl, rfl⟩
    | bufClear | pushRaw | pushOut | temper | untemper => exact hno rfl
  · rintro ⟨hrsv, hop, hea, heb⟩
    rw [hop, hea, heb]
    refine ⟨hrsv, commandOf_opcode i, ?_⟩
    cases i <;> simp [usesNoEngine, usesOneEngine, Instr.opcode, Instr.ea, Instr.eb]

/-- The one account of decoding: a word decodes to the well-formed command it encodes. -/
theorem decode_eq_ok_iff {n : Nat} {cmd : Word} {i : Instr} :
    decode n cmd = .ok i ↔ encode i = cmd ∧ i.wellFormed n = true := by
  rw [← decodeFields_eq_some_iff_encode, decode]
  split
  case h_1 hnone => simp [hnone]
  case h_2 j hj =>
    rw [hj, Option.some.injEq]
    split
    case isTrue hwf =>
      rw [Except.ok.injEq]
      exact ⟨fun h => ⟨h, h ▸ hwf⟩, And.left⟩
    case isFalse hwf =>
      refine iff_of_false (fun h => nomatch h) ?_
      rintro ⟨rfl, h⟩
      exact hwf h

/-- A word is illegal exactly when it fails the checks on its fields: no engine number matters (R157). -/
theorem decode_eq_illegalCmd_iff {n : Nat} {cmd : Word} :
    decode n cmd = .error .illegalCmd ↔ ¬∃ i, decodeFields cmd = some i := by
  simp only [← Option.isSome_iff_exists, decode]
  split
  case h_1 hnone => simp [hnone]
  case h_2 j hj => split <;> simp [hj]

/-- Settles O2: the word of a command decodes to it. -/
theorem decodeOfEncodeIsTheCommand : Obligations.DecodeOfEncodeIsTheCommand :=
  fun _ _ hwf => decode_eq_ok_iff.mpr ⟨rfl, hwf⟩

/-- Settles O3: the other direction of the same account. -/
theorem encodeOfDecodeIsTheWord : Obligations.EncodeOfDecodeIsTheWord :=
  fun _ _ _ h => decode_eq_ok_iff.mp h

/-- Settles O1: each of the twelve words is the encoding of its command. -/
theorem tableWordsDecode : Obligations.TableWordsDecode := by
  have decodes := decodeOfEncodeIsTheCommand
  exact ⟨decodes 2 (.seed 0) rfl, decodes 2 (.seed 1) rfl, decodes 2 (.next 0) rfl, decodes 16 (.next 15) rfl,
    decodes 2 .bufClear rfl, decodes 2 .pushRaw rfl, decodes 2 .pushOut rfl, decodes 2 (.inject 1) rfl,
    decodes 2 (.recover 1 0) rfl, decodes 16 (.recover 0xB 0xA) rfl, decodes 2 .temper rfl, decodes 2 .untemper rfl⟩

/-- Which words decode to a command, as a number and a condition on the engines it names. -/
theorem decode_eq_ok_iff_toNat {n : Nat} {cmd : Word} {i : Instr} :
    decode n cmd = .ok i ↔
      cmd.toNat = i.opcode.toNat + 256 * i.ea.toNat + 4096 * i.eb.toNat ∧ ∀ e ∈ i.engines, e.toNat < n := by
  rw [decode_eq_ok_iff, ← BitVec.toNat_inj, encode_toNat, eq_comm, Instr.wellFormed, List.all_eq_true]
  simp only [decide_eq_true_eq]

/-- Settles O4: the fields and the engines of each command. -/
theorem commandWordsOfEachCommand : Obligations.CommandWordsOfEachCommand := by
  intro n cmd
  simp [decode_eq_ok_iff_toNat, Instr.opcode, Instr.ea, Instr.eb, Instr.engines]

/-! The table of encodings (R68) -/

/-- Words are equal when their fields are. -/
theorem word_eq_iff_fields {w v : Word} :
    w = v ↔ rsvField w = rsvField v ∧ opField w = opField v ∧ eaField w = eaField v ∧ ebField w = ebField v := by
  simp only [← BitVec.toNat_inj, rsvField_toNat, opField_toNat, eaField_toNat, ebField_toNat]
  omega

/-- A row looks at the fields one by one. -/
theorem admits_iff_fields {r : OpcodeRow} {cmd : Word} :
    r.admits cmd = true ↔
      rsvField cmd &&& rsvField r.mask = rsvField r.pattern ∧ opField cmd &&& opField r.mask = opField r.pattern ∧
      eaField cmd &&& eaField r.mask = eaField r.pattern ∧ ebField cmd &&& ebField r.mask = ebField r.pattern := by
  rw [OpcodeRow.admits, beq_iff_eq, word_eq_iff_fields]
  simp only [rsvField, opField, eaField, ebField, BitVec.extractLsb'_and]

/-- Every row fixes RSV to 0 and the whole operation code, and the engine fields that the code does not use to 0. -/
theorem fields_of_row : ∀ r ∈ opcodeRows,
    rsvField r.mask = BitVec.allOnes 16 ∧ rsvField r.pattern = 0 ∧ opField r.mask = BitVec.allOnes 8 ∧
    eaField r.mask = (if usesNoEngine (opField r.pattern) then BitVec.allOnes 4 else 0) ∧ eaField r.pattern = 0 ∧
    ebField r.mask = (if usesNoEngine (opField r.pattern) || usesOneEngine (opField r.pattern)
      then BitVec.allOnes 4 else 0) ∧
    ebField r.pattern = 0 := by
  decide

/-- A mask that is all ones or 0 demands the field to be 0, or demands nothing. -/
theorem and_ite_allOnes_eq_zero_iff (b : Bool) (e : BitVec 4) :
    e &&& (if b then BitVec.allOnes 4 else 0) = 0 ↔ (b = true → e = 0) := by
  cases b with
  | false => exact iff_of_true BitVec.and_zero nofun
  | true => rw [if_pos rfl, BitVec.and_allOnes]; exact ⟨fun h _ => h, fun h => h rfl⟩

/-- The rows are the ILLEGAL_CMD checks of R65, one operation code each. -/
theorem admits_iff {r : OpcodeRow} (hr : r ∈ opcodeRows) {cmd : Word} :
    r.admits cmd = true ↔
      rsvField cmd = 0 ∧ opField cmd = opField r.pattern ∧
      (usesNoEngine (opField cmd) = true → eaField cmd = 0 ∧ ebField cmd = 0) ∧
      (usesOneEngine (opField cmd) = true → ebField cmd = 0) := by
  obtain ⟨hrsv, hrsv0, hop, hea, hea0, heb, heb0⟩ := fields_of_row r hr
  rw [admits_iff_fields, hrsv, hrsv0, hop, hea, hea0, heb, heb0, BitVec.and_allOnes, BitVec.and_allOnes,
    and_ite_allOnes_eq_zero_iff, and_ite_allOnes_eq_zero_iff]
  refine and_congr_right fun _ => and_congr_right fun hcode => ?_
  rw [hcode, Bool.or_eq_true, or_imp, imp_and, and_assoc]

/-- The operation codes of the rows are those of the opcode map. -/
theorem exists_row_of_code_iff {op : BitVec 8} {ea eb : BitVec 4} :
    (∃ r ∈ opcodeRows, op = opField r.pattern) ↔ ∃ i, commandOf op ea eb = some i := by
  constructor
  · rintro ⟨r, hr, rfl⟩
    simp only [opcodeRows, List.mem_cons, List.not_mem_nil, or_false] at hr
    rcases hr with rfl | rfl | rfl | rfl | rfl | rfl | rfl | rfl | rfl
    all_goals exact ⟨_, rfl⟩
  · rintro ⟨i, h⟩
    rw [opcode_of_commandOf h]
    cases i <;> simp only [Instr.opcode] <;> decide

/-- The words of the rows are the words that pass the ILLEGAL_CMD checks. -/
theorem exists_row_admits_iff {cmd : Word} :
    (∃ r ∈ opcodeRows, r.admits cmd = true) ↔ ∃ i, decodeFields cmd = some i := by
  have hcodes := exists_row_of_code_iff (op := opField cmd) (ea := eaField cmd) (eb := ebField cmd)
  constructor
  · rintro ⟨r, hr, hadmits⟩
    obtain ⟨hrsv, hop, hengines⟩ := (admits_iff hr).mp hadmits
    obtain ⟨i, hi⟩ := hcodes.mp ⟨r, hr, hop⟩
    exact ⟨i, decodeFields_eq_some_iff.mpr ⟨hrsv, hi, hengines⟩⟩
  · rintro ⟨i, h⟩
    obtain ⟨hrsv, hi, hengines⟩ := decodeFields_eq_some_iff.mp h
    obtain ⟨r, hr, hop⟩ := hcodes.mpr ⟨i, hi⟩
    exact ⟨r, hr, (admits_iff hr).mpr ⟨hrsv, hop, hengines⟩⟩

/-- Settles O7: two rows with one word would have one operation code; and the words of the rows are those of the
commands. -/
theorem tableRowsAreDisjointAndComplete : Obligations.TableRowsAreDisjointAndComplete := by
  refine ⟨?_, fun n cmd => ?_⟩
  · have hcodes : opcodeRows.Pairwise (fun r q => opField r.pattern ≠ opField q.pattern) := by decide
    refine hcodes.imp_of_mem fun hr hq hne cmd ⟨hadmits, hadmits'⟩ => hne ?_
    obtain ⟨-, hop, -⟩ := (admits_iff hr).mp hadmits
    obtain ⟨-, hop', -⟩ := (admits_iff hq).mp hadmits'
    exact hop.symm.trans hop'
  · rw [decode_eq_illegalCmd_iff, ← exists_row_admits_iff]
    simp only [not_exists, not_and, Bool.not_eq_true]

end Sys2Proof
end

section
/-! PROOFS. From the host's line to the command's effect: every command answers a next state (O53), a step of a word that
does not decode (O44), and the steps of an assembler line (O46). -/

namespace Sys2Proof.Machine

/-- Settles O53: a command answers by fault entry or by its own effect. -/
theorem everyCommandAnswersANextState : Obligations.EveryCommandAnswersANextState := by
  intro i s
  obtain ⟨t, ht, -⟩ := exec_faults_or_keeps_record i s
  exact ⟨t, ht⟩

/-! The end of a command in a halted block -/

/-- A refused CMD write is not recorded over the command's own fault (R156). -/
theorem State.retire_of_halted {s : State} (h : s.halted = true) (x : Executing) :
    s.retire x = { s with executing := none } := by
  cases hr : x.refused with
  | none => exact State.retire_of_none s hr
  | some w => rw [State.retire_of_some s hr, State.raiseFault_of_halted (s := { s with executing := none }) h]

/-- Settles O44: the decoding fault is entered, and then BUSY returns to 0 in a halted block. -/
theorem stepTakesTheDecodingFault : Obligations.StepTakesTheDecodingFault := by
  intro s x c hx hrunning hdone hdec
  have hrun := runCommand_of_error hrunning hdec
  rw [step_of_completes hx (completesNow_iff.mpr hdone), complete_of_next hrun,
    State.retire_of_halted (s.raiseFault_halted c x.cmd), State.raiseFault_of_running hrunning]

/-! A command reads of the sequencer its operand alone -/

/-- `s` with the sequencer's latch, the host's events and the count of draws replaced. -/
def State.withSequencer (s : State) (x : Option Executing) (host : List HostEvent) (draws : Nat) : State :=
  { s with executing := x, host := host, draws := draws }

/-- `t` is `s` with another latch, host and count of draws, and the same operand. -/
def DiffersInSequencer (x : Option Executing) (host : List HostEvent) (draws : Nat) (s t : State) : Prop :=
  t = s.withSequencer x host draws ∧ t.operand = s.operand

theorem State.raiseFault_withSequencer (s : State) (x : Option Executing) (host : List HostEvent) (draws : Nat)
    (c : Cause) (w : Word) :
    (s.withSequencer x host draws).raiseFault c w = (s.raiseFault c w).withSequencer x host draws := by
  cases hh : s.halted with
  | true => rw [State.raiseFault_of_halted hh, State.raiseFault_of_halted (s := s.withSequencer x host draws) hh]
  | false => rw [State.raiseFault_of_running hh, State.raiseFault_of_running (s := s.withSequencer x host draws) hh]; rfl

theorem respects_differsInSequencer (i : Instr) (x : Option Executing) (host : List HostEvent) (draws : Nat) :
    Respects i (DiffersInSequencer x host draws) where
  config := by rintro s _ ⟨rfl, -⟩; rfl
  operand := And.right
  bcnt := by rintro s _ ⟨rfl, -⟩; rfl
  fullBuffer := by rintro s _ ⟨rfl, -⟩ -; rfl
  engine := by rintro s _ e ⟨rfl, -⟩ -; exact sameEngine_of_eq rfl
  raiseFault := by
    rintro s _ c w ⟨rfl, hop⟩
    refine ⟨s.raiseFault_withSequencer x host draws c w, ?_⟩
    rw [State.operand_congr (State.raiseFault_executing _ c w) (State.raiseFault_data _ c w), hop,
      State.operand_congr (State.raiseFault_executing s c w) (State.raiseFault_data s c w)]
  setEngine := by rintro s _ e g ⟨rfl, hop⟩ -; exact ⟨rfl, hop⟩
  setResult := by rintro s _ w ⟨rfl, hop⟩; exact ⟨rfl, hop⟩
  clearBuffer := by rintro s _ ⟨rfl, hop⟩; exact ⟨rfl, hop⟩
  pushWord := by rintro s _ w ⟨rfl, hop⟩ -; exact ⟨rfl, hop⟩
  setBuffer := by rintro s _ b n ⟨rfl, hop⟩; exact ⟨rfl, hop⟩

/-- The command a CMD write latched has the effect it has on the idle block. -/
theorem exec_withSequencer {i : Instr} {s t : State} (ht : exec i s = .next t) {x : Option Executing}
    {host : List HostEvent} {draws : Nat} (hop : (s.withSequencer x host draws).operand = s.operand) :
    exec i (s.withSequencer x host draws) = .next (t.withSequencer x host draws) := by
  obtain ⟨_, _, hs, ht', rfl, -⟩ := (respects_differsInSequencer i x host draws).exec ⟨rfl, hop⟩
  cases ht.symm.trans hs
  exact ht'

theorem State.operand_of_idle {s : State} (hx : s.executing = none) : s.operand = s.data := by
  simp [State.operand, hx]

/-! The steps of an assembler line (R69) -/

/-- What a CMD write of command `i` latches in an idle block (R44). -/
def State.latchOf (s : State) (i : Instr) : Executing where
  cmd     := encode i
  operand := s.data
  wait    := Config.accessesWhileBusy s.draws
  refused := none

/-- The block after a CMD write of command `i`, the host waiting for BUSY = 0. -/
def State.latched (s : State) (i : Instr) (rest : List HostEvent) : State :=
  s.withSequencer (some (s.latchOf i)) (.awaitIdle :: rest) (s.draws + 1)

theorem step_write_register {s : State} {off : Nat} {w : Word} {rest : List HostEvent} (hx : s.executing = none)
    (hhost : s.host = .write 32 (s.config.base + off) w :: rest) (hoff : off < 0x40) (halign : off % 4 = 0) :
    step s = .next ({ s with host := rest }.hostWrite (windowReg off) w) := by
  rw [step_of_idle hx, hostTurn_of_cons hhost]
  exact hostEvent_write_register { s with host := rest } w hoff halign

/-- The line's CMD write latches its command in an idle, running block. -/
theorem step_asmLine {s : State} {i : Instr} {rest : List HostEvent} (hx : s.executing = none)
    (hrunning : s.halted = false) (hreset : s.inReset = false)
    (hhost : s.host = asmLine s.config.base i none ++ rest) : step s = .next (s.latched i rest) := by
  rw [step_write_register (off := 0x00) hx hhost (by decide) (by decide)]
  exact congrArg _ (State.writeCmd_of_idle (s := { s with host := .awaitIdle :: rest }) (encode i) hx hrunning hreset)

/-- While the host waits, the latched command completes as `exec` says of the idle block. -/
theorem step_latched {s t : State} {i : Instr} (hx : s.executing = none) (hrunning : s.halted = false)
    (hwf : i.wellFormed s.numEngines = true) (ht : exec i s = .next t) (rest : List HostEvent) :
    step (s.latched i rest) = .next (t.withSequencer none (.awaitIdle :: rest) (s.draws + 1)) := by
  have hop : (s.latched i rest).operand = s.operand := by
    rw [State.operand_of_idle hx]
    rfl
  have hdec : decode (s.latched i rest).numEngines (s.latchOf i).cmd = .ok i := decode_eq_ok_iff.mpr ⟨rfl, hwf⟩
  have hrun := (runCommand_of_ok (s := s.latched i rest) hrunning hdec).trans (exec_withSequencer ht hop)
  rw [step_of_completes rfl rfl, complete_of_next hrun, State.retire_of_none _ rfl]
  rfl

/-- The wait finds BUSY = 0. -/
theorem step_await_of_idle {s : State} {rest : List HostEvent} (hx : s.executing = none)
    (hhost : s.host = .awaitIdle :: rest) : step s = .next { s with host := rest } := by
  rw [step_of_idle hx, hostTurn_of_cons hhost]
  rfl

/-- A line without a DATA word takes three steps: its CMD write, the command, and the wait. -/
theorem run_asmLine_none {s : State} {i : Instr} {rest : List HostEvent} (hx : s.executing = none)
    (hrunning : s.halted = false) (hreset : s.inReset = false) (hwf : i.wellFormed s.numEngines = true)
    (hhost : s.host = asmLine s.config.base i none ++ rest) :
    ∃ t, exec i { s with host := rest } = .next t ∧
      Host.Core.run Sys2Proof.core 3 s = .next { t with draws := s.draws + 1 } := by
  let u : State := { s with host := rest }
  obtain ⟨t, ht⟩ := everyCommandAnswersANextState i u
  obtain ⟨-, -, hexecuting, -, hthost, -, -⟩ := frameOfEveryCommand i u t ht
  have hwrite : step s = .next (u.latched i rest) := step_asmLine hx hrunning hreset hhost
  have hcommand := step_latched (s := u) hx hrunning hwf ht rest
  have hwait := step_await_of_idle (s := t.withSequencer none (.awaitIdle :: rest) (s.draws + 1)) rfl rfl
  have hend : t.withSequencer none rest (s.draws + 1) = { t with draws := s.draws + 1 } := by
    rw [State.withSequencer, show t.executing = none from hexecuting.trans hx, show t.host = rest from hthost]
  refine ⟨t, ht, ?_⟩
  rw [run_succ hwrite, run_succ hcommand, run_succ hwait, ← hend]
  rfl

/-- Settles O46: a DATA word is one step more, after which the line goes on as one without. -/
theorem assemblerLineRunsItsCommand : Obligations.AssemblerLineRunsItsCommand := by
  intro s i v rest hx hrunning hreset hwf hhost
  cases v with
  | none => exact run_asmLine_none hx hrunning hreset hwf hhost
  | some w =>
    have hstep := step_write_register (off := 0x04) hx hhost (by decide) (by decide)
    obtain ⟨t, ht, hrun⟩ := run_asmLine_none (s := { s with data := w, host := asmLine s.config.base i none ++ rest })
      hx hrunning hreset hwf rfl
    exact ⟨t, ht, (run_succ hstep).trans hrun⟩

end Sys2Proof.Machine
end

section
/-! PROOFS. CAPTURE (O29): tempering undone (R83 to R86), positions in a raw stream (R103, R107), and the pushes of a
capture (R70). -/

namespace Sys2Proof.Machine

/-! Each inverse step undoes its step, bit by bit (R83, R84) -/

theorem getLsbD_stepR (x : Word) (p : ShiftMask) (i : Nat) :
    (stepR x p).getLsbD i = (x.getLsbD i ^^ (x.getLsbD (i + p.shift) && p.mask.getLsbD i)) := by
  simp [stepR, Nat.add_comm]

theorem getLsbD_stepL (x : Word) (p : ShiftMask) {i : Nat} (hi : i < 32) :
    (stepL x p).getLsbD i =
      if i < p.shift then x.getLsbD i else x.getLsbD i ^^ (x.getLsbD (i - p.shift) && p.mask.getLsbD i) := by
  simp only [stepL, BitVec.getLsbD_xor, BitVec.getLsbD_and, BitVec.getLsbD_shiftLeft, hi, decide_true]
  split <;> simp [*]

/-- Both branches of a round of InvR are one: a bit from 32 on is 0. -/
theorem invRLoop_succ (y : Word) (p : ShiftMask) (j : Nat) :
    invRLoop y p (j + 1) = setBit (invRLoop y p j) (31 - j)
      (y.getLsbD (31 - j) ^^ ((invRLoop y p j).getLsbD (31 - j + p.shift) && p.mask.getLsbD (31 - j))) := by
  simp only [invRLoop]
  split
  case isTrue h => rw [BitVec.getLsbD_of_ge _ _ h, Bool.false_and, Bool.xor_false]
  case isFalse => rfl

/-- After `j` rounds of InvR the bits from `32 - j` up are those of the word before the step. -/
theorem getLsbD_invRLoop_stepR (x : Word) {p : ShiftMask} (hp : p.Valid) {j i : Nat} (hj : j ≤ 32)
    (hji : 32 - j ≤ i) : (invRLoop (stepR x p) p j).getLsbD i = x.getLsbD i := by
  induction j generalizing i with
  | zero => rw [BitVec.getLsbD_of_ge _ _ hji, BitVec.getLsbD_of_ge _ _ hji]
  | succ j ih =>
    obtain hi | hi := Nat.lt_or_ge i 32
    · rw [invRLoop_succ, getLsbD_setBit _ _ _ _ hi]
      split
      case isTrue h =>
        have hshift := hp.1
        rw [ih (by omega) (by omega), getLsbD_stepR, Bool.xor_assoc, Bool.xor_self, Bool.xor_false, h]
      case isFalse h => exact ih (by omega) (by omega)
    · rw [BitVec.getLsbD_of_ge _ _ hi, BitVec.getLsbD_of_ge _ _ hi]

theorem invR_stepR (x : Word) {p : ShiftMask} (hp : p.Valid) : invR (stepR x p) p = x :=
  BitVec.eq_of_getLsbD_eq fun i _ => getLsbD_invRLoop_stepR x hp le_rfl (by omega)

theorem invLLoop_succ (y : Word) (p : ShiftMask) (i : Nat) :
    invLLoop y p (i + 1) = setBit (invLLoop y p i) i
      (if i < p.shift then y.getLsbD i
        else y.getLsbD i ^^ ((invLLoop y p i).getLsbD (i - p.shift) && p.mask.getLsbD i)) := by
  simp only [invLLoop]
  split <;> rfl

/-- After `j` rounds of InvL the bits below `j` are those of the word before the step. -/
theorem getLsbD_invLLoop_stepL (x : Word) {p : ShiftMask} (hp : p.Valid) {j i : Nat} (hj : j ≤ 32) (hij : i < j) :
    (invLLoop (stepL x p) p j).getLsbD i = x.getLsbD i := by
  induction j generalizing i with
  | zero => exact absurd hij (Nat.not_lt_zero i)
  | succ j ih =>
    rw [invLLoop_succ, getLsbD_setBit _ _ _ _ (by omega), getLsbD_stepL x p hj]
    split
    case isTrue hji =>
      subst hji
      split
      case isTrue => rfl
      case isFalse =>
        have hshift := hp.1
        rw [ih (by omega) (by omega), Bool.xor_assoc, Bool.xor_self, Bool.xor_false]
    case isFalse => exact ih (by omega) (by omega)

theorem invL_stepL (x : Word) {p : ShiftMask} (hp : p.Valid) : invL (stepL x p) p = x :=
  BitVec.eq_of_getLsbD_eq fun _ hi => getLsbD_invLLoop_stepL x hp le_rfl hi

/-- The four inverse steps, last step first, undo the four steps (R85, R86). -/
theorem untemper_temper {c : Config} (hc : c.Valid) (x : Word) : untemper c (temper c x) = x := by
  obtain ⟨-, -, h1, h2, h3, h4⟩ := hc
  rw [untemper, temper, invR_stepR _ h4, invL_stepL _ h3, invL_stepL _ h2, invR_stepR _ h1]

/-! The stream law (R103) -/

theorem twistWord_eq_mix (c : Config) (v : WordVec) (i : Nat) :
    twistWord c v i = wordAt v (i + 397) ^^^ mix c (wordAt v i) (wordAt v (i + 1)) := by
  simp only [twistWord, mix]
  split
  · rw [BitVec.xor_assoc]
  · rfl

theorem IsStreamFrom.mono {c : Config} {x : Nat → Word} {j k : Nat} (h : IsStreamFrom c x j) (hjk : j ≤ k) :
    IsStreamFrom c x k :=
  fun m hm => h m (hjk.trans hm)

/-- Each step of the twist moves the window on by one word: read as a ring, the vector then holds the words `j + k` to
`j + k + 623` of the stream. -/
theorem wordAt_twistLoop_of_window {c : Config} {x : Nat → Word} {j : Nat} {v : WordVec} (hs : IsStreamFrom c x j)
    (hw : Window x j v) {k m : Nat} (hkm : k ≤ m) (hmk : m < k + 624) : wordAt (twistLoop c v k) m = x (j + m) := by
  induction k generalizing m with
  | zero => exact hw m (by omega)
  | succ k ih =>
    rw [twistLoop, wordAt_setWord]
    by_cases hm : m = k + 624
    · have hstream := hs (j + k) (Nat.le_add_right j k)
      simp only [Nat.add_assoc] at hstream
      rw [hm, if_pos (Nat.add_mod_right k 624).symm, twistWord_eq_mix, ih (by omega) (by omega),
        ih (m := k) (by omega) (by omega), ih (m := k + 1) (by omega) (by omega), hstream]
    · rw [if_neg (by omega)]
      exact ih (by omega) (by omega)

/-- The stream law: a window twisted is the next window (R103). -/
theorem window_twist {c : Config} {x : Nat → Word} {j : Nat} {v : WordVec} (hs : IsStreamFrom c x j)
    (hw : Window x j v) : Window x (j + 624) (twist c v) := by
  intro i hi
  have h := wordAt_twistLoop_of_window hs hw (k := 624) (m := 624 + i) (by omega) (by omega)
  rwa [← wordAt_mod, Nat.add_mod_left, wordAt_mod, ← Nat.add_assoc] at h

/-! Positions (R107) -/

theorem Engine.AtPosition.refill {c : Config} {x : Nat → Word} {p : Nat} {g : Engine} (h : g.AtPosition c x p) :
    (g.refill c).AtPosition c x p := by
  obtain ⟨hl, j, hp, hs, hw⟩ := h
  by_cases hfull : g.cur = full
  · rw [Engine.refill_of_full hfull]
    refine ⟨hl, j + 624, ?_, hs.mono (Nat.le_add_right j 624), window_twist hs hw⟩
    rw [hp, hfull]
    rfl
  · rw [Engine.refill_of_lt (count_ne_full.mp hfull)]
    exact ⟨hl, j, hp, hs, hw⟩

/-- A draw gives the raw word at the engine's position and moves it on by one. -/
theorem Engine.AtPosition.draw {c : Config} {x : Nat → Word} {p : Nat} {g : Engine} (h : g.AtPosition c x p) :
    (g.draw c).1 = x p ∧ (g.draw c).2.AtPosition c x (p + 1) := by
  have hlt := Engine.refill_cur_lt c g
  obtain ⟨hl, j, hp, hs, hw⟩ := h.refill
  refine ⟨?_, hl, j, ?_, hs, hw⟩
  · rw [hp]
    exact hw _ hlt
  · show p + 1 = j + (countUp (g.refill c).cur).val
    rw [countUp_val hlt]
    omega

/-- A window injected at cursor 624 stands 624 words on (R106). -/
theorem Engine.injected_atPosition {c : Config} {x : Nat → Word} {p : Nat} {v : WordVec} (hs : IsStreamFrom c x p)
    (hw : Window x p v) : (Engine.injected v).AtPosition c x (p + 624) :=
  ⟨rfl, p, rfl, hs, hw⟩

/-- `n` NEXTs move an engine on by `n` positions and leave the configuration. -/
theorem State.afterNexts_atPosition {s : State} {e : BitVec 4} {g : Engine} {x : Nat → Word} {p : Nat}
    (hg : s.engine? e = some g) (hpos : g.AtPosition s.config x p) (n : Nat) :
    (s.afterNexts e n).config = s.config ∧
      ∃ g', (s.afterNexts e n).engine? e = some g' ∧ g'.AtPosition s.config x (p + n) := by
  induction n with
  | zero => exact ⟨rfl, g, hg, hpos⟩
  | succ n ih =>
    obtain ⟨hc, g', hg', hpos'⟩ := ih
    rw [State.afterNexts, State.after_next hg' hpos'.1, hc]
    exact ⟨hc, _, State.engine?_setEngine_self hg', hpos'.draw.2⟩

/-- The outputs of an engine are the tempered words from its position on. -/
theorem State.output_of_atPosition {s : State} {e : BitVec 4} {g : Engine} {x : Nat → Word} {p : Nat}
    (hg : s.engine? e = some g) (hpos : g.AtPosition s.config x p) (n : Nat) :
    s.output e n = temper s.config (x (p + n)) := by
  obtain ⟨hc, g', hg', hpos'⟩ := State.afterNexts_atPosition hg hpos n
  rw [State.output, State.afterNexts, State.after_next hg' hpos'.1, State.setResult_result, hc, hpos'.draw.1]

/-! The pushes of a capture -/

/-- `t` is the block `s` with the first `k` words of `u` in its recovery buffer. -/
structure State.Captured (s : State) (u : Nat → Word) (k : Nat) (t : State) : Prop where
  config    : t.config = s.config
  engines   : t.engines = s.engines
  executing : t.executing = none
  bcnt      : t.bcnt.val = k
  word      : ∀ j, j < k → wordAt t.buf j = u j

/-- One push of a DATA word that untempers to the next word (R132). -/
theorem State.Captured.pushOut {s t : State} {u : Nat → Word} {k : Nat} (h : s.Captured u k t) (hk : k < 624) {w : Word}
    (hw : untemper s.config w = u k) : s.Captured u (k + 1) ({ t with data := w }.after .pushOut) := by
  have hroom : t.bcnt.val < 624 := h.bcnt ▸ hk
  have hop : { t with data := w }.operand = w := State.operand_of_idle h.executing
  have hpushed : untemper t.config w = u k := h.config ▸ hw
  rw [State.after_pushOut (s := { t with data := w }) hroom, hop, hpushed]
  refine ⟨h.config, h.engines, h.executing, ?_, fun j hj => ?_⟩
  · exact (countUp_val hroom).trans (congrArg (· + 1) h.bcnt)
  · show wordAt (setWord t.buf t.bcnt.val (u k)) j = u j
    rw [h.bcnt, wordAt_setWord_of_lt _ _ hk (by omega)]
    split
    case isTrue hkj => rw [hkj]
    case isFalse hkj => exact h.word j (by omega)

theorem State.captured_pushOutputs {s : State} {u y : Nat → Word} (hidle : s.executing = none)
    (hy : ∀ k, k < 624 → untemper s.config (y k) = u k) {k : Nat} (hk : k ≤ 624) :
    s.Captured u k ((s.after .bufClear).pushOutputs y k) := by
  induction k with
  | zero => exact ⟨rfl, rfl, hidle, rfl, nofun⟩
  | succ k ih => exact (ih (by omega)).pushOut hk (hy k hk)

/-- Settles O29: the buffer holds the window at `p`, and the injected engine stands 624 words on. -/
theorem captureClonesFromOutputs : Obligations.CaptureClonesFromOutputs := by
  intro s d x y p hc hidle hd hs hy
  have hraw (k : Nat) (hk : k < 624) : untemper s.config (y k) = x (p + k) := by rw [hy k hk, untemper_temper hc]
  have hcap := State.captured_pushOutputs (u := fun k => x (p + k)) hidle hraw le_rfl
  generalize (s.after .bufClear).pushOutputs y 624 = t at hcap ⊢
  have hwindow : Window x p t.buf := hcap.word
  have hdt : d.toNat < t.numEngines := by rwa [State.numEngines_congr hcap.engines]
  obtain ⟨g, hg⟩ := State.engine?_of_lt hdt
  have hgd := State.engine?_setEngine_self (g := Engine.injected t.buf) hg
  have hpos : (Engine.injected t.buf).AtPosition t.config x (p + 624) :=
    Engine.injected_atPosition (hcap.config ▸ hs) hwindow
  refine ⟨_, _, execInject_of_full hg (count_eq_full.mpr hcap.bcnt), hgd, rfl, hwindow, fun n => ?_⟩
  rw [← hcap.config]
  exact State.output_of_atPosition (s := (t.setEngine d _).clearBuffer) hgd hpos n

end Sys2Proof.Machine
end

section
/-! PROOFS. The transforms (40_transforms.md): the tempering steps bit by bit (O8), their inverses (O9, O10), the closed
forms of G7 (O11), and the commands TEMPER and UNTEMPER (O12, O13). -/

/-! The words of a command that names no engine (R65, R68) -/

namespace Sys2Proof

theorem commandOf_opcode_of_no_engines {i : Instr} (hi : i.engines = []) (ea eb : BitVec 4) :
    commandOf i.opcode ea eb = some i := by
  cases i with
  | seed | next | inject | recover => cases hi
  | bufClear | pushRaw | pushOut | temper | untemper => rfl

/-- A command that names no engine has one legal word, and every other word with its operation code is illegal. -/
theorem decode_of_no_engines {n : Nat} {cmd : Word} {i : Instr} (hi : i.engines = [])
    (hop : cmd.toNat % 256 = i.opcode.toNat) :
    decode n cmd = if cmd = encode i then .ok i else .error .illegalCmd := by
  split
  case isTrue hcmd => exact decode_eq_ok_iff.mpr ⟨hcmd.symm, by rw [Instr.wellFormed, hi, List.all_nil]⟩
  case isFalse hcmd =>
    rw [decode_eq_illegalCmd_iff]
    rintro ⟨j, hj⟩
    have hop' : opField cmd = i.opcode := BitVec.eq_of_toNat_eq ((opField_toNat cmd).trans hop)
    obtain ⟨-, hcommand, -⟩ := decodeFields_eq_some_iff.mp hj
    rw [hop', commandOf_opcode_of_no_engines hi, Option.some.injEq] at hcommand
    subst hcommand
    exact hcmd (decodeFields_eq_some_iff_encode.mp hj).symm

namespace Machine

/-- Settles O8: a shifted bit from outside the word is 0. -/
theorem temperStepsBitByBit : Obligations.TemperStepsBitByBit := by
  refine ⟨fun _ _ => rfl, fun p x i _ _ => ?_, fun p x i _ hi => ?_⟩
  · rw [getLsbD_stepR]
    split
    case isTrue => rfl
    case isFalse h => rw [BitVec.getLsbD_of_ge x (i + p.shift) (by omega), Bool.false_and, Bool.xor_false]
  · rw [getLsbD_stepL x p hi]
    simp only [← Nat.not_lt, ite_not]

/-! The inverses undo the steps on both sides, as a left inverse does on finitely many words -/

theorem stepR_invR (y : Word) {p : ShiftMask} (hp : p.Valid) : stepR (invR y p) p = y :=
  have h : Function.LeftInverse (invR · p) (stepR · p) := fun x => invR_stepR x hp
  h.rightInverse_of_card_le le_rfl y

theorem stepL_invL (y : Word) {p : ShiftMask} (hp : p.Valid) : stepL (invL y p) p = y :=
  have h : Function.LeftInverse (invL · p) (stepL · p) := fun x => invL_stepL x hp
  h.rightInverse_of_card_le le_rfl y

theorem temper_untemper {c : Config} (hc : c.Valid) (y : Word) : temper c (untemper c y) = y := by
  obtain ⟨-, -, h1, h2, h3, h4⟩ := hc
  rw [untemper, temper, stepR_invR _ h1, stepL_invL _ h2, stepL_invL _ h3, stepR_invR _ h4]

theorem untemper_eq_of_temper_eq {c : Config} (hc : c.Valid) {x y : Word} (h : temper c x = y) : untemper c y = x := by
  rw [← h, untemper_temper hc]

/-- Settles O9: each inverse step undoes its step, and its step undoes it. -/
theorem inverseStepsUndoTheSteps : Obligations.InverseStepsUndoTheSteps := by
  refine fun p y hp => ⟨⟨stepR_invR y hp, ?_⟩, ⟨stepL_invL y hp, ?_⟩⟩
  · rintro x rfl
    exact (invR_stepR x hp).symm
  · rintro x rfl
    exact (invL_stepL x hp).symm

/-- Settles O10: Untemper is an inverse on both sides. -/
theorem untemperIsTheInverseOfTemper : Obligations.UntemperIsTheInverseOfTemper := by
  intro c hc
  refine ⟨fun x => ⟨untemper_temper hc x, temper_untemper hc x⟩, ?_, fun f hf => ?_⟩
  · exact Function.bijective_iff_has_inverse.mpr ⟨untemper c, untemper_temper hc, temper_untemper hc⟩
  · exact funext fun y => (untemper_eq_of_temper_eq hc (hf y)).symm

/-! The closed forms (G7): the preimage of `y` is the fixed point of a refinement of guesses, and each refinement makes
as many further bits right as the step shifts by. -/

/-- A guess `z` at the word that StepR takes to `y`, refined: `y` with the shifted and masked bits of `z` taken out. -/
def refineR (y : Word) (p : ShiftMask) (z : Word) : Word := y ^^^ ((z >>> p.shift) &&& p.mask)

/-- A guess `z` at the word that StepL takes to `y`, refined. -/
def refineL (y : Word) (p : ShiftMask) (z : Word) : Word := y ^^^ ((z <<< p.shift) &&& p.mask)

theorem refineR_of_full_mask (y : Word) {p : ShiftMask} (hp : p.mask = BitVec.allOnes 32) (z : Word) :
    refineR y p z = y ^^^ (z >>> p.shift) := by
  rw [refineR, hp, BitVec.and_allOnes]

theorem getLsbD_refineR (y : Word) (p : ShiftMask) (z : Word) (i : Nat) :
    (refineR y p z).getLsbD i = (y.getLsbD i ^^ (z.getLsbD (i + p.shift) && p.mask.getLsbD i)) := by
  simp [refineR, Nat.add_comm]

theorem getLsbD_refineL (y : Word) (p : ShiftMask) (z : Word) {i : Nat} (hi : i < 32) :
    (refineL y p z).getLsbD i =
      if i < p.shift then y.getLsbD i else y.getLsbD i ^^ (z.getLsbD (i - p.shift) && p.mask.getLsbD i) := by
  simp only [refineL, BitVec.getLsbD_xor, BitVec.getLsbD_and, BitVec.getLsbD_shiftLeft, hi, decide_true]
  split <;> simp [*]

/-- The step leaves the top `p.shift` bits, and every refinement makes `p.shift` more bits right. -/
theorem getLsbD_iterate_refineR (x : Word) (p : ShiftMask) {k i : Nat} (hi : 32 ≤ i + (k + 1) * p.shift) :
    ((refineR (stepR x p) p)^[k] (stepR x p)).getLsbD i = x.getLsbD i := by
  induction k generalizing i with
  | zero =>
    rw [Function.iterate_zero_apply, getLsbD_stepR, BitVec.getLsbD_of_ge x (i + p.shift) (by omega), Bool.false_and,
      Bool.xor_false]
  | succ k ih =>
    rw [Nat.succ_mul] at hi
    rw [Function.iterate_succ_apply', getLsbD_refineR, ih (by omega), getLsbD_stepR, Bool.xor_assoc, Bool.xor_self,
      Bool.xor_false]

/-- The step leaves the bits below the first bit of the mask, and every refinement makes `p.shift` more bits right. -/
theorem getLsbD_iterate_refineL (x : Word) {p : ShiftMask} {n k i : Nat} (hmask : ∀ j < n, p.mask.getLsbD j = false)
    (hi : i < 32) (hik : i < n + k * p.shift) :
    ((refineL (stepL x p) p)^[k] (stepL x p)).getLsbD i = x.getLsbD i := by
  induction k generalizing i with
  | zero =>
    rw [Function.iterate_zero_apply, getLsbD_stepL x p hi, hmask i (by omega), Bool.and_false, Bool.xor_false, ite_self]
  | succ k ih =>
    rw [Nat.succ_mul] at hik
    rw [Function.iterate_succ_apply', getLsbD_refineL _ _ _ hi, getLsbD_stepL x p hi]
    split
    case isTrue => rfl
    case isFalse => rw [ih (by omega) (by omega), Bool.xor_assoc, Bool.xor_self, Bool.xor_false]

theorem invR_eq_iterate_refineR (y : Word) {p : ShiftMask} (hp : p.Valid) (k : Nat) (hk : 32 ≤ (k + 1) * p.shift) :
    invR y p = (refineR y p)^[k] y := by
  obtain ⟨x, rfl⟩ : ∃ x, stepR x p = y := ⟨invR y p, stepR_invR y hp⟩
  rw [invR_stepR x hp]
  exact BitVec.eq_of_getLsbD_eq fun i _ => (getLsbD_iterate_refineR x p (by omega)).symm

theorem invL_eq_iterate_refineL (y : Word) {p : ShiftMask} (hp : p.Valid) (n k : Nat)
    (hmask : ∀ j < n, p.mask.getLsbD j = false) (hk : 32 ≤ n + k * p.shift) : invL y p = (refineL y p)^[k] y := by
  obtain ⟨x, rfl⟩ : ∃ x, stepL x p = y := ⟨invL y p, stepL_invL y hp⟩
  rw [invL_stepL x hp]
  exact BitVec.eq_of_getLsbD_eq fun i hi => (getLsbD_iterate_refineL x hmask hi (by omega)).symm

/-- Settles O11: one refinement undoes the shifts by 18 and 15, four the shift by 7, and two the shift by 11. -/
theorem closedFormOfUntemper : Obligations.ClosedFormOfUntemper := by
  intro y x1 x2 z1 z2 z3 z4
  obtain ⟨-, -, h1, h2, h3, h4⟩ := standard_valid
  have hx1 : invR y Config.standard.step4 = x1 :=
    (invR_eq_iterate_refineR y h4 1 (by decide)).trans (refineR_of_full_mask y rfl y)
  have hx2 : invL x1 Config.standard.step3 = x2 := invL_eq_iterate_refineL x1 h3 17 1 (by decide) (by decide)
  have hz4 : invL x2 Config.standard.step2 = z4 := invL_eq_iterate_refineL x2 h2 7 4 (by decide) (by decide)
  rw [untemper, hx1, hx2, hz4, invR_eq_iterate_refineR z4 h1 2 (by decide)]
  calc refineR z4 Config.standard.step1 (refineR z4 Config.standard.step1 z4)
    _ = z4 ^^^ ((z4 ^^^ (z4 >>> 11)) >>> 11) := by rw [refineR_of_full_mask z4 rfl, refineR_of_full_mask z4 rfl]; rfl
    _ = z4 ^^^ (z4 >>> 11) ^^^ (z4 >>> 22) := by
      rw [BitVec.ushiftRight_xor_distrib, ← BitVec.shiftRight_add, BitVec.xor_assoc z4]

/-- Settles O12: TEMPER names no engine, and its effect is `execTemper`. -/
theorem temperWritesResult : Obligations.TemperWritesResult :=
  ⟨fun _ _ => decode_of_no_engines (i := .temper) rfl, fun _ => rfl, by decide⟩

/-- Settles O13: UNTEMPER names no engine, and each word of the corner cases is tempered back. -/
theorem untemperWritesThePreimage : Obligations.UntemperWritesThePreimage := by
  have untempers (x y : Word) (h : temper Config.standard x = y) : untemper Config.standard y = x :=
    untemper_eq_of_temper_eq standard_valid h
  exact ⟨fun _ _ => decode_of_no_engines (i := .untemper) rfl,
    fun s => ⟨rfl, fun hc => temper_untemper hc s.operand⟩,
    untempers 0 _ (by decide), untempers 0x00000002 _ (by decide), untempers 0x12DD9BB3 _ (by decide),
    untempers 0xFFFFFFFF _ (by decide), untempers 0x91A10D12 _ (by decide), untempers 0x12345678 _ (by decide)⟩

end Machine
end Sys2Proof
end

section
/-! PROOFS. The generator engine (41_engine.md): seeding and the words the twist reads (O14, O15), the stream law (O16),
the commands SEED, NEXT and INJECT and their frames (O17, O18, O19, O57), the stream of every engine and its outputs (O21,
O22), and the cadence of the twists (O24). -/

namespace Sys2Proof.Machine

/-! Seeding and the twist (R100 to R103) -/

theorem wordAt_seedFill (c : Config) (seed : Word) {i : Nat} (hi : i < 624) :
    wordAt (seedFill c seed) i = seedWord c seed i :=
  wordAt_ofFn _ hi

/-- Settles O14: the words of SeedFill are `seedWord`'s, which is the recurrence. -/
theorem seedingRecurrence : Obligations.SeedingRecurrence := by
  refine fun c seed => ⟨wordAt_seedFill c seed (by decide), fun i hpos hi => ?_⟩
  obtain ⟨i, rfl⟩ := Nat.exists_eq_add_of_le' hpos
  rw [Nat.add_sub_cancel, wordAt_seedFill c seed (by omega), wordAt_seedFill c seed (by omega), seedWord]

/-- A word the loop has passed is already the twisted one. -/
theorem wordAt_twistLoop_eq_twist (c : Config) (v : WordVec) {i k : Nat} (hk : k ≤ 624) (hi : i < k) :
    wordAt (twistLoop c v k) i = wordAt (twist c v) i := by
  rw [wordAt_twistLoop_of_lt c v hk hi, wordAt_twist c v (by omega)]

/-- Step `i` reads the old word `i`. -/
theorem wordAt_twist_eq_mix (c : Config) (v : WordVec) {i : Nat} (hi : i < 624) :
    wordAt (twist c v) i =
      wordAt (twistLoop c v i) (i + 397) ^^^ mix c (wordAt v i) (wordAt (twistLoop c v i) (i + 1)) := by
  rw [wordAt_twist c v hi, twistWord_eq_mix, wordAt_twistLoop_of_ge c v hi le_rfl]

/-- Step `i` reads the word `i + 397 - 624 = i - 227` after its own step, where the index wraps round. -/
theorem wordAt_twistLoop_wrapped (c : Config) (v : WordVec) {i : Nat} (hi : 227 ≤ i) (hi' : i < 624) :
    wordAt (twistLoop c v i) (i + 397) = wordAt (twist c v) (i - 227) := by
  rw [← wordAt_mod, show (i + 397) % 624 = i - 227 by omega, wordAt_twistLoop_eq_twist c v (by omega) (by omega)]

/-- Settles O15: each of the two other words step `i` reads lies ahead of the loop, and is old, or behind it, and is
new. -/
theorem twistReadsOldAndNewWords : Obligations.TwistReadsOldAndNewWords := by
  refine fun c v => ⟨fun i hi => ?_, fun i hlo hhi => ?_, ?_⟩
  · rw [wordAt_twist_eq_mix c v (by omega), wordAt_twistLoop_of_ge c v (by omega) (by omega),
      wordAt_twistLoop_of_ge c v (by omega) (by omega)]
  · rw [wordAt_twist_eq_mix c v (by omega), wordAt_twistLoop_wrapped c v hlo (by omega),
      wordAt_twistLoop_of_ge c v (by omega) (by omega)]
  · have hfirst : wordAt (twistLoop c v 623) (623 + 1) = wordAt (twist c v) 0 :=
      (wordAt_mod _ 624).symm.trans (wordAt_twistLoop_eq_twist c v (by decide) (by decide))
    rw [wordAt_twist_eq_mix c v (by decide), wordAt_twistLoop_wrapped c v (by decide) (by decide), hfirst]

/-- Settles O16: `window_twist`. -/
theorem twistAdvancesTheWindow : Obligations.TwistAdvancesTheWindow := fun _ _ _ _ => window_twist

/-! The engine's commands (R104 to R106) -/

/-- Settles O17: `execSeed_of_engine`. -/
theorem seedFillsAndTwists : Obligations.SeedFillsAndTwists := fun _ _ he =>
  (State.engine?_of_lt he).elim fun _ hg => execSeed_of_engine hg

/-- Settles O18: a draw below cursor 624, and a draw at it. -/
theorem nextGivesTheWordAtTheCursor : Obligations.NextGivesTheWordAtTheCursor := by
  intro s e g hg hl
  refine (execNext_of_advancing hg hl).trans ?_
  split
  case isTrue h =>
    have hcur : countUp g.cur = ⟨g.cur.val + 1, by omega⟩ := Fin.ext (countUp_val h)
    rw [Engine.draw_of_lt h, hcur]
    rfl
  case isFalse h =>
    have hfull : g.cur = full := count_eq_full.mpr (by omega)
    rw [Engine.draw_of_full hfull]
    rfl

/-- Settles O19: `execInject_of_full`. -/
theorem injectReplacesTheEngine : Obligations.InjectReplacesTheEngine := fun _ _ he hb =>
  (State.engine?_of_lt he).elim fun _ hg => execInject_of_full hg (count_eq_full.mpr hb)

theorem State.engine?_of_not_named {i : Instr} {s t : State} {k : BitVec 4} (hk : k ∉ i.engines)
    (ht : exec i s = .next t) : t.engine? k = s.engine? k :=
  (unnamedEnginesAreUntouched i s t k hk ht).2.1

/-- Settles O57: a command of one engine leaves every other; fault entry leaves all registers but the fault record, and
the command's own effect leaves that record. -/
theorem frameOfTheEngineCommands : Obligations.FrameOfTheEngineCommands := by
  intro s t e
  have hothers {i : Instr} (hi : i.engines = [e]) (h : exec i s = .next t) (k : BitVec 4) (hk : k ≠ e) :
      t.engine? k = s.engine? k := State.engine?_of_not_named (by simpa [hi]) h
  refine ⟨fun h => ?_, fun h => ?_, fun h => ?_⟩
  · replace hothers := hothers rfl h
    cases hg : s.engine? e with
    | none =>
      cases (execSeed_of_none hg).symm.trans h
      exact ⟨s.raiseFault_buf _ _, s.raiseFault_bcnt _ _, s.raiseFault_result _ _, hothers,
        fun he => absurd he (State.engine?_eq_none.mp hg).not_gt⟩
    | some g =>
      cases (execSeed_of_engine hg).symm.trans h
      exact ⟨rfl, rfl, rfl, hothers, fun _ => ⟨rfl, rfl, rfl⟩⟩
  · replace hothers := hothers rfl h
    cases hg : s.engine? e with
    | none =>
      cases (execNext_of_none hg).symm.trans h
      exact ⟨s.raiseFault_buf _ _, s.raiseFault_bcnt _ _, hothers, nofun⟩
    | some g =>
      cases hl : g.life with
      | uninit =>
        cases (execNext_of_uninit hg hl).symm.trans h
        refine ⟨s.raiseFault_buf _ _, s.raiseFault_bcnt _ _, hothers, fun g' hg' hl' => ?_⟩
        cases hg'
        cases hl.symm.trans hl'
      | advancing =>
        cases (execNext_of_advancing hg hl).symm.trans h
        exact ⟨rfl, rfl, hothers, fun _ _ _ => ⟨rfl, rfl, rfl⟩⟩
  · replace hothers := hothers rfl h
    cases hg : s.engine? e with
    | none =>
      cases (execInject_of_none hg).symm.trans h
      exact ⟨s.raiseFault_buf _ _, s.raiseFault_result _ _, hothers,
        fun he => absurd he (State.engine?_eq_none.mp hg).not_gt⟩
    | some g =>
      by_cases hb : s.bcnt = full
      · cases (execInject_of_full hg hb).symm.trans h
        exact ⟨rfl, rfl, hothers, fun _ _ => ⟨rfl, rfl, rfl⟩⟩
      · cases (execInject_of_short hg hb).symm.trans h
        exact ⟨s.raiseFault_buf _ _, s.raiseFault_result _ _, hothers,
          fun _ hfull => absurd (count_eq_full.mpr hfull) hb⟩

/-! The raw stream of a vector (R103, R107) -/

/-- The raw stream that begins with `v`: run without end, the twist's loop replaces word `k` of the stream at step `k`. -/
def rawStream (c : Config) (v : WordVec) (k : Nat) : Word := wordAt (twistLoop c v k) k

/-- Read as a ring, the vector after `k` steps holds the words `k` to `k + 623` of the stream. -/
theorem wordAt_twistLoop_eq_rawStream (c : Config) (v : WordVec) {k m : Nat} (hkm : k ≤ m) (hmk : m < k + 624) :
    wordAt (twistLoop c v k) m = rawStream c v m := by
  induction hkm using Nat.decreasingInduction with
  | self => rfl
  | of_succ k hlt ih =>
    rw [← ih (by omega), twistLoop, wordAt_setWord, if_neg (by omega)]

theorem window_rawStream (c : Config) (v : WordVec) : Window (rawStream c v) 0 v := fun i hi => by
  rw [Nat.zero_add]
  exact wordAt_twistLoop_eq_rawStream c v (Nat.zero_le i) (by omega)

/-- Step `k` puts word `k + 624` in the place of word `k`. -/
theorem isStreamFrom_rawStream (c : Config) (v : WordVec) : IsStreamFrom c (rawStream c v) 0 := by
  intro k _
  rw [← wordAt_twistLoop_eq_rawStream c v (k := k + 1) (m := k + 624) (by omega) (by omega), twistLoop, wordAt_setWord,
    if_pos (Nat.add_mod_right k 624).symm, twistWord_eq_mix, wordAt_twistLoop_eq_rawStream c v (by omega) (by omega),
    wordAt_twistLoop_eq_rawStream c v (by omega) (by omega), wordAt_twistLoop_eq_rawStream c v (by omega) (by omega)]

theorem Engine.seeded_atPosition {c : Config} {x : Nat → Word} {seed : Word} (hs : IsStreamFrom c x 0)
    (hw : Window x 0 (seedFill c seed)) : (Engine.seeded c seed).AtPosition c x 624 :=
  ⟨rfl, 624, rfl, hs.mono (Nat.zero_le 624), (Nat.zero_add 624) ▸ window_twist hs hw⟩

/-- Settles O22: the stream is the one the engine's vector, SeedFill or the buffer begins. -/
theorem enginesDenotePositionsOfStreams : Obligations.EnginesDenotePositionsOfStreams := by
  refine ⟨fun c g hl => ?_, fun s e g x p hg hpos => ?_, fun s e he => ?_, fun s e he hb => ?_⟩
  · exact ⟨rawStream c g.mt, g.cur.val, hl, 0, (Nat.zero_add _).symm, isStreamFrom_rawStream c g.mt,
      window_rawStream c g.mt⟩
  · obtain ⟨hword, hnext⟩ := hpos.draw
    exact ⟨_, _, execNext_of_advancing hg hpos.1, congrArg (temper s.config) hword,
      State.engine?_setEngine_self (s := s) hg, hnext⟩
  · obtain ⟨g, hg⟩ := State.engine?_of_lt he
    have hw := window_rawStream s.config (seedFill s.config s.operand)
    have hs := isStreamFrom_rawStream s.config (seedFill s.config s.operand)
    exact ⟨_, _, _, execSeed_of_engine hg, State.engine?_setEngine_self hg, hw, hs, Engine.seeded_atPosition hs hw⟩
  · obtain ⟨g, hg⟩ := State.engine?_of_lt he
    have hw := window_rawStream s.config s.buf
    have hs := isStreamFrom_rawStream s.config s.buf
    exact ⟨_, _, _, execInject_of_full hg (count_eq_full.mpr hb), State.engine?_setEngine_self (s := s) hg, hw, hs,
      (Nat.zero_add 624) ▸ Engine.injected_atPosition hs hw⟩

/-! The stream of zeros (I16) -/

theorem isStreamFrom_zero (c : Config) : IsStreamFrom c (fun _ => 0) 0 := fun k _ => by
  simp [mix]

theorem temper_zero (c : Config) : temper c 0 = 0 := by
  simp [temper, stepR, stepL]

/-- Settles O21: the injected buffer is a window of the stream of zeros. -/
theorem zeroVectorGivesZeroOutputs : Obligations.ZeroVectorGivesZeroOutputs := by
  intro s e n he hb hzero
  obtain ⟨g, hg⟩ := State.engine?_of_lt he
  have hpos := Engine.injected_atPosition (isStreamFrom_zero s.config) hzero
  have hget := State.engine?_setEngine_self (g := Engine.injected s.buf) hg
  rw [State.after_inject hg (count_eq_full.mpr hb),
    State.output_of_atPosition (s := (s.setEngine e _).clearBuffer) hget hpos]
  exact temper_zero s.config

/-! The cadence of the twists (R109) -/

theorem Engine.draw_cur (c : Config) (g : Engine) : (g.draw c).2.cur.val = g.cur.val % 624 + 1 := by
  by_cases h : g.cur = full
  · rw [Engine.draw_of_full h, h]
    rfl
  · have hlt := count_ne_full.mp h
    rw [Engine.draw_of_lt hlt, Nat.mod_eq_of_lt hlt]
    exact countUp_val hlt

/-- From cursor 0 the cursor counts the NEXTs modulo 624, and does not come back to 0. -/
theorem State.afterNexts_cur {s : State} {e : BitVec 4} {g : Engine} (hg : s.engine? e = some g)
    (hl : g.life = .advancing) (hcur : g.cur = 0) (n : Nat) :
    ∃ g', (s.afterNexts e n).engine? e = some g' ∧ g'.life = .advancing ∧ g'.cur.val % 624 = n % 624 ∧
      (g'.cur.val = 0 ↔ n = 0) := by
  induction n with
  | zero => exact ⟨g, hg, hl, by rw [hcur]; rfl, by simp [hcur]⟩
  | succ n ih =>
    obtain ⟨g', hg', hl', hmod, -⟩ := ih
    rw [State.afterNexts, State.after_next hg' hl']
    refine ⟨_, State.engine?_setEngine_self (s := s.afterNexts e n) hg', (Engine.draw_life _ g').trans hl', ?_⟩
    rw [Engine.draw_cur, hmod]
    omega

theorem State.after_seed {s : State} {e : BitVec 4} {g : Engine} (h : s.engine? e = some g) :
    s.after (.seed e) = s.setEngine e (Engine.seeded s.config s.operand) :=
  State.after_of_next (execSeed_of_engine h)

/-- Settles O24: the seeded engine is at position 624 of its stream, with cursor 0. -/
theorem cadenceAfterSeed : Obligations.CadenceAfterSeed := by
  intro s e he
  have hw := window_rawStream s.config (seedFill s.config s.operand)
  have hs := isStreamFrom_rawStream s.config (seedFill s.config s.operand)
  obtain ⟨g, hg⟩ := State.engine?_of_lt he
  have hseeded := State.engine?_setEngine_self (g := Engine.seeded s.config s.operand) hg
  rw [State.after_seed hg]
  refine ⟨_, hw, hs, fun k => ⟨?_, ?_⟩⟩
  · exact State.output_of_atPosition (s := s.setEngine e _) hseeded (Engine.seeded_atPosition hs hw) k
  · obtain ⟨g', hg', -, hmod, hzero⟩ := State.afterNexts_cur hseeded rfl rfl k
    refine ⟨g', hg', ?_⟩
    have hle : g'.cur.val ≤ 624 := Fin.is_le g'.cur
    omega

end Sys2Proof.Machine
end

section
/-! PROOFS. The eager and the lazy first twist (O23): an engine whose pending twist has run and the same engine with its
twist still pending draw alike, so no command tells them apart (R108). -/

namespace Sys2Proof.Machine

/-! Draws -/

/-- An engine whose pending twist has run already draws the same word and becomes the same engine. -/
theorem Engine.draw_refill (c : Config) (g : Engine) : (g.refill c).draw c = g.draw c := by
  simp only [Engine.draw, Engine.refill_of_lt (Engine.refill_cur_lt c g)]

theorem captureLoop_refill (c : Config) (g : Engine) (buf : WordVec) (k : Nat) :
    captureLoop c (g.refill c) buf (k + 1) = captureLoop c g buf (k + 1) := by
  induction k with
  | zero => simp only [captureLoop, Engine.draw_refill]
  | succ k ih => rw [captureLoop_succ, ih, ← captureLoop_succ]

theorem State.setBuffer_setEngine (s : State) (e : BitVec 4) (g : Engine) (b : WordVec) (n : Count) :
    (s.setEngine e g).setBuffer b n = (s.setBuffer b n).setEngine e g := rfl

/-! Commands -/

section
variable {s : State} {e : BitVec 4} {g : Engine}

/-- NEXT draws the same from the block `s` and from `s` with engine `e`'s twist still pending. -/
theorem exec_next_setEngine_of_refill (he : s.engine? e = some (g.refill s.config)) (hl : g.life = .advancing) :
    exec (.next e) (s.setEngine e g) = exec (.next e) s := by
  have hlazy := execNext_of_advancing (State.engine?_setEngine_self (g := g) he) hl
  have heager := execNext_of_advancing he ((g.refill_life s.config).trans hl)
  rw [Engine.draw_refill] at heager
  rw [State.setEngine_setEngine] at hlazy
  exact hlazy.trans heager.symm

theorem exec_recover_setEngine_of_refill (he : s.engine? e = some (g.refill s.config)) (hl : g.life = .advancing)
    {d : BitVec 4} (hd : d.toNat < s.numEngines) :
    exec (.recover d e) (s.setEngine e g) = exec (.recover d e) s := by
  obtain ⟨h, hh⟩ := State.engine?_of_lt hd
  obtain ⟨h', hh'⟩ := State.engine?_of_lt (s := s.setEngine e g) (by rwa [State.setEngine_numEngines])
  have hlazy := execRecover_of_advancing hh' (State.engine?_setEngine_self he) hl
  have heager := execRecover_of_advancing hh he ((g.refill_life s.config).trans hl)
  rw [captureLoop_refill] at heager
  rw [State.setEngine_setEngine] at hlazy
  exact hlazy.trans heager.symm

/-! SEED, INJECT and RECOVER into it replace an engine without a look at it. -/

theorem exec_seed_setEngine {h : Engine} (he : s.engine? e = some h) :
    exec (.seed e) (s.setEngine e g) = exec (.seed e) s := by
  have hset := execSeed_of_engine (State.engine?_setEngine_self (g := g) he)
  rw [State.setEngine_setEngine] at hset
  exact hset.trans (execSeed_of_engine he).symm

theorem exec_inject_setEngine_of_full {h : Engine} (he : s.engine? e = some h) (hb : s.bcnt = full) :
    exec (.inject e) (s.setEngine e g) = exec (.inject e) s := by
  have hset := execInject_of_full (State.engine?_setEngine_self (g := g) he) hb
  rw [State.setEngine_setEngine] at hset
  exact hset.trans (execInject_of_full he hb).symm

theorem exec_recover_setEngine_dst {h h' : Engine} {src : BitVec 4} (he : s.engine? e = some h) (hne : src ≠ e)
    (hsrc : s.engine? src = some h') (hl : h'.life = .advancing) :
    exec (.recover e src) (s.setEngine e g) = exec (.recover e src) s := by
  have hsrc' : (s.setEngine e g).engine? src = some h' := (State.engine?_setEngine_ne hne).trans hsrc
  have hset := execRecover_of_advancing (State.engine?_setEngine_self (g := g) he) hsrc' hl
  rw [State.setEngine_comm hne.symm, State.setBuffer_setEngine, State.setEngine_setEngine] at hset
  exact hset.trans (execRecover_of_advancing he hsrc hl).symm

/-- A command that names engine `e` does the same whether `e`'s twist has run or is pending, or takes one fault in both
blocks. -/
theorem exec_setEngine_of_named {i : Instr} (hi : e ∈ i.engines) (he : s.engine? e = some (g.refill s.config))
    (hl : g.life = .advancing) :
    exec i (s.setEngine e g) = exec i s ∨
      ∃ c, exec i s = faulting c i s ∧ exec i (s.setEngine e g) = faulting c i (s.setEngine e g) := by
  have hset : (s.setEngine e g).engine? e = some g := State.engine?_setEngine_self he
  cases i with
  | seed k =>
    obtain rfl := List.mem_singleton.mp hi
    exact .inl (exec_seed_setEngine he)
  | next k =>
    obtain rfl := List.mem_singleton.mp hi
    exact .inl (exec_next_setEngine_of_refill he hl)
  | inject k =>
    obtain rfl := List.mem_singleton.mp hi
    by_cases hb : s.bcnt = full
    · exact .inl (exec_inject_setEngine_of_full he hb)
    · exact .inr ⟨_, execInject_of_short he hb, execInject_of_short hset hb⟩
  | recover d src =>
    by_cases hsrc : src = e
    · subst hsrc
      cases hd : s.engine? d with
      | none =>
        have hd' : (s.setEngine src g).engine? d = none := by
          rwa [State.engine?_eq_none, State.setEngine_numEngines, ← State.engine?_eq_none]
        exact .inr ⟨_, execRecover_of_none (.inl hd), execRecover_of_none (.inl hd')⟩
      | some h => exact .inl (exec_recover_setEngine_of_refill he hl (State.engine?_lt hd))
    · obtain rfl : e = d := (List.mem_cons.mp hi).resolve_right fun h => hsrc (List.mem_singleton.mp h).symm
      have hother : (s.setEngine e g).engine? src = s.engine? src := State.engine?_setEngine_ne hsrc
      cases hs : s.engine? src with
      | none => exact .inr ⟨_, execRecover_of_none (.inr hs), execRecover_of_none (.inr (hother.trans hs))⟩
      | some h =>
        cases hlife : h.life with
        | uninit =>
          exact .inr ⟨_, execRecover_of_uninit he hs hlife, execRecover_of_uninit hset (hother.trans hs) hlife⟩
        | advancing => exact .inl (exec_recover_setEngine_dst he hsrc hs hlife)
  | bufClear | pushRaw | pushOut | temper | untemper => cases hi

/-- After any command the block with engine `e`'s twist run and the one with it pending are the same, or still differ
in that engine alone, as before. -/
theorem exec_setEngine_of_refill {i : Instr} {t : State} (he : s.engine? e = some (g.refill s.config))
    (hl : g.life = .advancing) (ht : exec i s = .next t) :
    ∃ u, exec i (s.setEngine e g) = .next u ∧ (u = t ∨ (t.engine? e = s.engine? e ∧ u = t.setEngine e g)) := by
  by_cases hi : e ∈ i.engines
  · obtain hsame | ⟨c, heager, hlazy⟩ := exec_setEngine_of_named hi he hl
    · exact ⟨t, hsame.trans ht, .inl rfl⟩
    · cases heager.symm.trans ht
      exact ⟨_, hlazy, .inr ⟨State.engine?_congr (s.raiseFault_engines c _) e, s.raiseFault_setEngine e g c _⟩⟩
  · exact ⟨_, exec_setEngine_of_not_named hi ht g, .inr ⟨State.engine?_of_not_named hi ht, rfl⟩⟩

end

/-! Outputs -/

/-- Two blocks that one NEXT makes the same give the same outputs. -/
theorem State.output_congr {s t : State} {e : BitVec 4} (h : exec (.next e) s = exec (.next e) t) (n : Nat) :
    s.output e n = t.output e n := by
  obtain ⟨r, hr⟩ := everyCommandAnswersANextState (.next e) t
  have hnexts : s.afterNexts e (n + 1) = t.afterNexts e (n + 1) := by
    induction n with
    | zero => exact (State.after_of_next (h.trans hr)).trans (State.after_of_next hr).symm
    | succ n ih => rw [State.afterNexts, ih, ← State.afterNexts]
  rw [State.output, State.output, hnexts]

/-- The first twist that SEED runs is the one an engine left at SeedFill with cursor 624 would run at its first NEXT. -/
theorem Engine.refill_injected_seedFill (c : Config) (seed : Word) :
    (Engine.injected (seedFill c seed)).refill c = Engine.seeded c seed :=
  Engine.refill_of_full rfl

/-- Settles O23: the eager engine is the lazy one with its pending twist run, and the lazy block is the eager one with
that engine put back. -/
theorem eagerAndLazyFirstTwistAgree : Obligations.EagerAndLazyFirstTwistAgree := by
  intro s e v he eager lazy
  have hlazy : eager.setEngine e (Engine.injected (seedFill s.config v)) = lazy := s.setEngine_setEngine e _ _
  have heager : eager.engine? e = some ((Engine.injected (seedFill s.config v)).refill eager.config) :=
    (State.engine?_setEngine_of_lt _ he).trans (congrArg some (Engine.refill_injected_seedFill s.config v).symm)
  have hnext : exec (.next e) eager = exec (.next e) lazy := by
    rw [← hlazy, exec_next_setEngine_of_refill heager rfl]
  refine ⟨hnext, State.output_congr hnext, fun d hd => ?_, fun i t ht => ?_⟩
  · rw [← hlazy, exec_recover_setEngine_of_refill heager rfl (by rwa [State.setEngine_numEngines])]
  · rw [← hlazy]
    exact exec_setEngine_of_refill heager rfl ht

end Sys2Proof.Machine
end

section
/-! PROOFS. Recovery (42_recovery.md): the buffer commands (O25, O58), RECOVER, its clone law and its expansion (O26, O27,
O28), and what a partial buffer cannot do (O30). -/

namespace Sys2Proof.Machine

/-! The buffer commands (R130 to R132) -/

theorem State.pushWord_of_room (s : State) (w : Word) (h : s.bcnt.val < 624) :
    s.pushWord w = { s with buf := s.buf.set s.bcnt.val w h, bcnt := ⟨s.bcnt.val + 1, by omega⟩ } := by
  have hcount : countUp s.bcnt = ⟨s.bcnt.val + 1, by omega⟩ := Fin.ext (countUp_val h)
  simp only [State.pushWord, setWord, Nat.mod_eq_of_lt h, hcount]

/-- Settles O25: with room in the buffer a push is `pushWord`. -/
theorem bufferCommandsFillTheBuffer : Obligations.BufferCommandsFillTheBuffer := by
  refine ⟨fun s => rfl, fun s h => ?_, fun s h => ?_⟩
  · exact (execPushRaw_of_room (count_ne_full.mpr h)).trans (congrArg _ (s.pushWord_of_room _ h))
  · exact (execPushOut_of_room (count_ne_full.mpr h)).trans (congrArg _ (s.pushWord_of_room _ h))

/-- A push takes its fault at BCNT 624, and else appends one word. -/
theorem exec_push_cases {i : Instr} (hi : i = .pushRaw ∨ i = .pushOut) (s : State) :
    (s.bcnt = full ∧ exec i s = .next (s.raiseFault .lenMismatch (encode i))) ∨
    (s.bcnt ≠ full ∧ ∃ w, exec i s = .next (s.pushWord w)) := by
  by_cases hb : s.bcnt = full
  · obtain rfl | rfl := hi
    · exact .inl ⟨hb, execPushRaw_of_full hb⟩
    · exact .inl ⟨hb, execPushOut_of_full hb⟩
  · obtain rfl | rfl := hi
    · exact .inr ⟨hb, _, execPushRaw_of_room hb⟩
    · exact .inr ⟨hb, _, execPushOut_of_room hb⟩

theorem State.raiseFault_frame (s : State) (c : Cause) (w : Word) :
    s.raiseFault c w =
      { s with
        halted   := (s.raiseFault c w).halted
        cause    := (s.raiseFault c w).cause
        faultCmd := (s.raiseFault c w).faultCmd } := by
  unfold State.raiseFault
  split <;> rfl

theorem frame_of_push {i : Instr} (hi : i = .pushRaw ∨ i = .pushOut) {s t : State} (ht : exec i s = .next t) :
    t = { s with buf := t.buf, bcnt := t.bcnt, halted := t.halted, cause := t.cause, faultCmd := t.faultCmd } ∧
    (∀ j, j < 624 → j ≠ s.bcnt.val → wordAt t.buf j = wordAt s.buf j) ∧
    (s.bcnt.val < 624 → t.halted = s.halted ∧ t.cause = s.cause ∧ t.faultCmd = s.faultCmd) := by
  obtain ⟨hb, h⟩ | ⟨hb, w, h⟩ := exec_push_cases hi s <;> cases h.symm.trans ht
  · refine ⟨?_, fun j _ _ => ?_, fun hlt => absurd hb (count_ne_full.mpr hlt)⟩
    · rw [State.raiseFault_buf, State.raiseFault_bcnt]
      exact s.raiseFault_frame _ _
    · rw [State.raiseFault_buf]
  · refine ⟨rfl, fun j hj hne => ?_, fun _ => ⟨rfl, rfl, rfl⟩⟩
    rw [State.pushWord_buf, wordAt_setWord_of_lt _ _ (count_ne_full.mp hb) hj, if_neg hne.symm]

/-- Settles O58: `frame_of_push` for both pushes. -/
theorem frameOfTheBufferCommands : Obligations.FrameOfTheBufferCommands := by
  refine fun s t => ⟨fun ht => ?_, fun ht => ?_⟩
  · obtain rfl := State.after_of_next ht
    rfl
  · exact ht.elim (frame_of_push (.inl rfl)) (frame_of_push (.inr rfl))

/-! RECOVER (R133) -/

/-- The block `s` with a capture `r` from engine `src` done, and the captured buffer injected into engine `d`. -/
def State.recovered (s : State) (d src : BitVec 4) (r : Engine × WordVec) : State :=
  ((s.setEngine src r.1).setBuffer r.2 0).setEngine d (Engine.injected r.2)

theorem exec_recover_of_advancing {s : State} {d src : BitVec 4} {g : Engine} (hd : d.toNat < s.numEngines)
    (hsrc : s.engine? src = some g) (hl : g.life = .advancing) :
    exec (.recover d src) s = .next (s.recovered d src (captureLoop s.config g s.buf 624)) :=
  (State.engine?_of_lt hd).elim fun _ hh => execRecover_of_advancing hh hsrc hl

theorem State.recovered_engine?_dst {s : State} {d : BitVec 4} (hd : d.toNat < s.numEngines) (src : BitVec 4)
    (r : Engine × WordVec) : (s.recovered d src r).engine? d = some (Engine.injected r.2) :=
  State.engine?_setEngine_of_lt (s := (s.setEngine src r.1).setBuffer r.2 0) _
    (by simpa [State.numEngines] using hd)

theorem State.recovered_engine?_src {s : State} {d src : BitVec 4} (hne : src ≠ d) {g : Engine}
    (hsrc : s.engine? src = some g) (r : Engine × WordVec) : (s.recovered d src r).engine? src = some r.1 :=
  (State.engine?_setEngine_ne hne).trans (State.engine?_setEngine_self (s := s) hsrc)

/-- Settles O26: the source after its 624 draws is still ADVANCING, and the rest is `State.recovered` written out. -/
theorem recoverCompletes : Obligations.RecoverCompletes := by
  intro s d src g hd hsrc hl
  have hlife := (captureLoop_life s.config g s.buf 624).trans hl
  have hexec := exec_recover_of_advancing hd hsrc hl
  generalize captureLoop s.config g s.buf 624 = r at hlife hexec
  exact ⟨_, r.1, hexec, rfl, hlife⟩

/-! The clone law (R135, R136) -/

/-- `k` draws of a capture move the source on by `k` positions, and capture the `k` raw words from its position on. -/
theorem captureLoop_atPosition {c : Config} (hc : c.Valid) {x : Nat → Word} {p : Nat} {g : Engine}
    (h : g.AtPosition c x p) (buf : WordVec) {k : Nat} (hk : k ≤ 624) :
    (captureLoop c g buf k).1.AtPosition c x (p + k) ∧
      ∀ j, j < k → wordAt (captureLoop c g buf k).2 j = x (p + j) := by
  induction k with
  | zero => exact ⟨h, nofun⟩
  | succ k ih =>
    obtain ⟨hpos, hword⟩ := ih (by omega)
    obtain ⟨hdrawn, hnext⟩ := hpos.draw
    rw [captureLoop_succ, untemper_temper hc, hdrawn]
    refine ⟨hnext, fun j hj => ?_⟩
    rw [wordAt_setWord_of_lt _ _ (by omega) (by omega)]
    split
    case isTrue hkj => rw [hkj]
    case isFalse hkj => exact hword j (by omega)

theorem Engine.AtPosition.isStreamFrom {c : Config} {x : Nat → Word} {p : Nat} {g : Engine} (h : g.AtPosition c x p) :
    IsStreamFrom c x p := by
  obtain ⟨-, j, hp, hs, -⟩ := h
  exact hs.mono (by omega)

/-- Settles O27: the destination is injected with the window at `p`, so it stands 624 words on, as the source does after
its 624 draws. -/
theorem recoverClonesTheSource : Obligations.RecoverClonesTheSource := by
  intro s d src g x p hc hd hsrc hpos
  obtain ⟨hsource, hwindow⟩ := captureLoop_atPosition hc hpos s.buf le_rfl
  have hexec := exec_recover_of_advancing hd hsrc hpos.1
  generalize captureLoop s.config g s.buf 624 = r at hsource hwindow hexec
  have hgd := State.recovered_engine?_dst hd src r
  have hclone : (Engine.injected r.2).AtPosition s.config x (p + 624) :=
    Engine.injected_atPosition hpos.isStreamFrom hwindow
  obtain ⟨gs, hgs, hgspos⟩ :
      ∃ gs, (s.recovered d src r).engine? src = some gs ∧ gs.AtPosition s.config x (p + 624) := by
    by_cases hne : src = d
    · exact ⟨_, hne ▸ hgd, hclone⟩
    · exact ⟨_, State.recovered_engine?_src hne hsrc r, hsource⟩
  refine ⟨_, _, gs, hexec, hgd, rfl, hwindow, hclone, hgs, hgspos, fun n => ?_⟩
  have hdst := State.output_of_atPosition hgd hclone n
  exact ⟨hdst, (State.output_of_atPosition hgs hgspos n).trans hdst.symm⟩

/-! The expansion of RECOVER (R134) -/

/-- The block `s` in the course of the host's capture from engine `src`: the source and the buffer as RECOVER's own loop
has them, with the count `n`, and the `result` and `data` of the host's last turn. -/
def State.capturing (s : State) (src : BitVec 4) (r : Engine × WordVec) (n : Count) (result data : Word) : State :=
  { (s.setEngine src r.1).setBuffer r.2 n with result := result, data := data }

/-- NEXT makes the draw of one round of RECOVER's loop. -/
theorem State.capturing_after_next {s : State} {src : BitVec 4} {g : Engine} (hsrc : s.engine? src = some g)
    {r : Engine × WordVec} (hl : r.1.life = .advancing) (n : Count) (result data : Word) :
    (s.capturing src r n result data).after (.next src) =
      s.capturing src ((r.1.draw s.config).2, r.2) n (temper s.config (r.1.draw s.config).1) data := by
  have hr : (s.capturing src r n result data).engine? src = some r.1 := State.engine?_setEngine_self (s := s) hsrc
  rw [State.after_next hr hl]
  simp [State.capturing, State.setBuffer, State.setEngine, State.setResult]

/-- PUSH_OUT stores the word of one round of RECOVER's loop. -/
theorem State.capturing_after_pushOut {s : State} (hidle : s.executing = none) (src : BitVec 4)
    (r : Engine × WordVec) {n : Count} (hn : n.val < 624) (result data : Word) :
    (s.capturing src r n result data).after .pushOut =
      s.capturing src (r.1, setWord r.2 n.val (untemper s.config data)) (countUp n) result data := by
  have hop : (s.capturing src r n result data).operand = data := State.operand_of_idle hidle
  rw [State.after_pushOut hn, hop]
  rfl

/-- `k` turns of the host's capture are `k` rounds of RECOVER's loop; from the first turn on DATA is RESULT. -/
theorem State.hostCapture_eq_capturing {s : State} {src : BitVec 4} {g : Engine} (hidle : s.executing = none)
    (hsrc : s.engine? src = some g) (hl : g.life = .advancing) {k : Nat} (hk : k ≤ 624) :
    ∃ result data, (0 < k → data = result) ∧ (s.after .bufClear).hostCapture src k =
      s.capturing src (captureLoop s.config g s.buf k) ⟨k, by omega⟩ result data := by
  induction k with
  | zero =>
    refine ⟨s.result, s.data, nofun, ?_⟩
    rw [captureLoop, State.capturing, State.setEngine_same hsrc]
    rfl
  | succ k ih =>
    obtain ⟨result, data, -, hcap⟩ := ih (by omega)
    have hlife : (captureLoop s.config g s.buf k).1.life = .advancing := (captureLoop_life ..).trans hl
    have hnext := State.capturing_after_next hsrc hlife ⟨k, by omega⟩ result data
    have hcount : countUp ⟨k, by omega⟩ = ⟨k + 1, by omega⟩ := Fin.ext (countUp_val hk)
    rw [State.hostCapture, hcap, hnext, captureLoop_succ, ← hcount]
    exact ⟨_, _, fun _ => rfl, State.capturing_after_pushOut hidle src _ (n := ⟨k, by omega⟩) hk _ _⟩

/-- Settles O28: the host's capture leaves the source and a full buffer as RECOVER's loop does, and INJECT does the
rest. -/
theorem recoverIsItsExpansion : Obligations.RecoverIsItsExpansion := by
  intro s d src g hidle hd hsrc hl
  obtain ⟨w, v, hsame, hcap⟩ := State.hostCapture_eq_capturing hidle hsrc hl le_rfl
  rw [hsame (by decide)] at hcap
  have hexec := exec_recover_of_advancing hd hsrc hl
  generalize captureLoop s.config g s.buf 624 = r at hcap hexec
  have hdst : d.toNat < (s.capturing src r full w w).numEngines := by simpa [State.numEngines, State.capturing] using hd
  obtain ⟨h, hh⟩ := State.engine?_of_lt hdst
  refine ⟨_, w, hexec, ?_⟩
  rw [hcap]
  exact State.after_inject hh rfl

/-! A partial buffer (R139) -/

theorem engines_of_faulting {i : Instr} {s t : State} {c : Cause} (h : exec i s = faulting c i s)
    (ht : exec i s = .next t) : t.engines = s.engines := by
  cases h.symm.trans ht
  exact s.raiseFault_engines c _

/-- With BCNT below 624 only SEED, NEXT and RECOVER write an engine. -/
theorem exec_engines_of_short {i : Instr} {s t : State} (hb : s.bcnt ≠ full) (ht : exec i s = .next t) :
    t.engines = s.engines ∨ (∃ e, i = .seed e) ∨ (∃ e, i = .next e) ∨ ∃ d src, i = .recover d src := by
  cases i with
  | seed e => exact .inr (.inl ⟨e, rfl⟩)
  | next e => exact .inr (.inr (.inl ⟨e, rfl⟩))
  | recover d src => exact .inr (.inr (.inr ⟨d, src, rfl⟩))
  | inject e =>
    left
    cases hg : s.engine? e with
    | none => exact engines_of_faulting (i := .inject e) (execInject_of_none hg) ht
    | some g => exact engines_of_faulting (i := .inject e) (execInject_of_short hg hb) ht
  | pushRaw | pushOut =>
    obtain ⟨hframe, -⟩ := frame_of_push (by simp) ht
    exact .inl (by rw [hframe])
  | bufClear | temper | untemper =>
    obtain rfl := State.after_of_next ht
    exact .inl rfl

/-- With BCNT below 624 no command carries a word of the buffer into an engine: RECOVER captures over all of them. -/
theorem exec_engines_congr_buf {i : Instr} {s t u : State} (hb : s.bcnt ≠ full) (words : WordVec)
    (ht : exec i s = .next t) (hu : exec i { s with buf := words } = .next u) : u.engines = t.engines := by
  have bothFault {c : Cause} (hs : exec i s = faulting c i s)
      (hw : exec i { s with buf := words } = faulting c i { s with buf := words }) : u.engines = t.engines :=
    (engines_of_faulting hw hu).trans (engines_of_faulting hs ht).symm
  cases i with
  | seed e =>
    cases hg : s.engine? e with
    | none => exact bothFault (execSeed_of_none hg) (execSeed_of_none hg)
    | some g =>
      cases (execSeed_of_engine hg).symm.trans ht
      cases (execSeed_of_engine (s := { s with buf := words }) hg).symm.trans hu
      rfl
  | next e =>
    cases hg : s.engine? e with
    | none => exact bothFault (execNext_of_none hg) (execNext_of_none hg)
    | some g =>
      cases hl : g.life with
      | uninit => exact bothFault (execNext_of_uninit hg hl) (execNext_of_uninit hg hl)
      | advancing =>
        cases (execNext_of_advancing hg hl).symm.trans ht
        cases (execNext_of_advancing (s := { s with buf := words }) hg hl).symm.trans hu
        rfl
  | recover d src =>
    cases hd : s.engine? d with
    | none => exact bothFault (execRecover_of_none (.inl hd)) (execRecover_of_none (.inl hd))
    | some h =>
      cases hg : s.engine? src with
      | none => exact bothFault (execRecover_of_none (.inr hg)) (execRecover_of_none (.inr hg))
      | some g =>
        cases hl : g.life with
        | uninit => exact bothFault (execRecover_of_uninit hd hg hl) (execRecover_of_uninit hd hg hl)
        | advancing =>
          have hs := execRecover_of_advancing hd hg hl
          have hw := execRecover_of_advancing (s := { s with buf := words }) hd hg hl
          rw [captureLoop_full_congr s.config g words s.buf] at hw
          generalize captureLoop s.config g s.buf 624 = r at hs hw
          cases hs.symm.trans ht
          cases hw.symm.trans hu
          rfl
  | bufClear | pushRaw | pushOut | inject | temper | untemper =>
    have hkept : t.engines = s.engines := by simpa using exec_engines_of_short hb ht
    have hkept' : u.engines = s.engines := by simpa using exec_engines_of_short (s := { s with buf := words }) hb hu
    rw [hkept', hkept]

theorem exec_push_of_short {i : Instr} (hi : i = .pushRaw ∨ i = .pushOut) {s : State} (hb : s.bcnt ≠ full) :
    ∃ t, exec i s = .next t ∧ t.bcnt.val = s.bcnt.val + 1 := by
  obtain ⟨hfull, -⟩ | ⟨-, w, h⟩ := exec_push_cases hi s
  · exact absurd hfull hb
  · exact ⟨_, h, countUp_val (count_ne_full.mp hb)⟩

/-- Settles O30: a short INJECT is fault entry, a push with room appends a word, and the last two parts are
`exec_engines_of_short` and `exec_engines_congr_buf`. -/
theorem partialBufferIsNeverInjected : Obligations.PartialBufferIsNeverInjected := by
  intro s hlt
  have hb := count_ne_full.mpr hlt
  refine ⟨fun e he hh => ?_, exec_push_of_short (.inl rfl) hb, exec_push_of_short (.inr rfl) hb,
    fun i t ht => exec_engines_of_short hb ht, fun i words t u ht hu => exec_engines_congr_buf hb words ht hu⟩
  obtain ⟨g, hg⟩ := State.engine?_of_lt he
  exact (execInject_of_short hg hb).trans (congrArg _ (State.raiseFault_of_running hh _ _))

end Sys2Proof.Machine
end

section
/-! PROOFS. Faults (60_exceptions.md): the words the decoder refuses (O5, O6), the fault of each command (O32, O33, O36,
O37), what a fault writes (O31), a refused CMD write (O34) and the halted block (O35). -/

namespace Sys2Proof

/-! Words that no command has (R64, R65, R152) -/

/-- The operation codes of the opcode map (R62, R66). -/
theorem exists_commandOf_iff {op : BitVec 8} {ea eb : BitVec 4} :
    (∃ i, commandOf op ea eb = some i) ↔ 0x01 ≤ op.toNat ∧ op.toNat ≤ 0x09 := by
  constructor
  · rintro ⟨i, h⟩
    rw [opcode_of_commandOf h]
    cases i <;> simp only [Instr.opcode] <;> decide
  · rintro ⟨hlo, hhi⟩
    unfold commandOf
    interval_cases op.toNat <;> exact ⟨_, rfl⟩

theorem usesNoEngine_iff {op : BitVec 8} : usesNoEngine op = true ↔ op.toNat ∈ [0x03, 0x04, 0x05, 0x08, 0x09] := by
  simp [usesNoEngine, ← BitVec.toNat_inj, or_assoc]

theorem usesOneEngine_iff {op : BitVec 8} : usesOneEngine op = true ↔ op.toNat ∈ [0x01, 0x02, 0x06] := by
  simp [usesOneEngine, ← BitVec.toNat_inj, or_assoc]

/-- The ILLEGAL_CMD checks (R65) of a CMD word as a number. -/
theorem exists_decodeFields_iff_toNat {cmd : Word} :
    (∃ i, decodeFields cmd = some i) ↔
      cmd.toNat / 65536 = 0 ∧ (0x01 ≤ cmd.toNat % 256 ∧ cmd.toNat % 256 ≤ 0x09) ∧
      (cmd.toNat % 256 ∈ [0x03, 0x04, 0x05, 0x08, 0x09] → cmd.toNat / 256 % 16 = 0 ∧ cmd.toNat / 4096 % 16 = 0) ∧
      (cmd.toNat % 256 ∈ [0x01, 0x02, 0x06] → cmd.toNat / 4096 % 16 = 0) := by
  simp only [decodeFields_eq_some_iff, exists_and_left, exists_and_right, exists_commandOf_iff, usesNoEngine_iff,
    usesOneEngine_iff, ← BitVec.toNat_inj, rsvField_toNat, opField_toNat, eaField_toNat, ebField_toNat,
    BitVec.ofNat_eq_ofNat, BitVec.toNat_ofNat, Nat.zero_mod]

/-- Settles O5: an illegal word fails one of the ILLEGAL_CMD checks; with RSV 1 a word of any operation code does. -/
theorem illegalCommandWords : Obligations.IllegalCommandWords := by
  have illegal_iff (n : Nat) (cmd : Word) := (decode_eq_illegalCmd_iff (n := n)).trans
    (not_congr (exists_decodeFields_iff_toNat (cmd := cmd)))
  refine ⟨fun n cmd => ?_, fun n op hop => ⟨BitVec.ofNat 32 (65536 + op), ?_⟩⟩
  · rw [illegal_iff]
    simp only [List.mem_cons, List.not_mem_nil, or_false]
    omega
  · have hword : (BitVec.ofNat 32 (65536 + op)).toNat = 65536 + op := Nat.mod_eq_of_lt (by omega)
    rw [illegal_iff, hword]
    exact ⟨by omega, fun ⟨hrsv, _⟩ => by omega⟩

/-! Words of commands that name an engine the block does not have (R63, R153) -/

/-- The word of a command decodes to it, or names an engine the block does not have. -/
theorem decode_encode (n : Nat) (i : Instr) :
    decode n (encode i) = if i.wellFormed n then .ok i else .error .badEngine := by
  rw [decode, decodeFields_eq_some_iff_encode.mpr rfl]

theorem decode_illegal_or_encoding (n : Nat) (cmd : Word) :
    decode n cmd = .error .illegalCmd ∨ ∃ i, encode i = cmd := by
  simp only [← decodeFields_eq_some_iff_encode]
  exact or_iff_not_imp_right.mpr decode_eq_illegalCmd_iff.mpr

theorem decode_error_cases {n : Nat} {cmd : Word} {c : Cause} (h : decode n cmd = .error c) :
    c = .illegalCmd ∨ c = .badEngine := by
  obtain hillegal | ⟨i, rfl⟩ := decode_illegal_or_encoding n cmd
  · exact .inl (Except.error.inj (h.symm.trans hillegal))
  · rw [decode_encode] at h
    split at h
    · cases h
    · exact .inr (Except.error.inj h).symm

/-- R153's condition on the word of a command. -/
theorem not_wellFormed_iff_toNat (n : Nat) (i : Instr) :
    ¬i.wellFormed n = true ↔
      ((encode i).toNat % 256 ∈ [0x01, 0x02, 0x06] ∧ n ≤ (encode i).toNat / 256 % 16) ∨
      ((encode i).toNat % 256 = 0x07 ∧ (n ≤ (encode i).toNat / 256 % 16 ∨ n ≤ (encode i).toNat / 4096 % 16)) := by
  have hop := i.opcode.isLt
  have hea := i.ea.isLt
  have heb := i.eb.isLt
  have hopField : (encode i).toNat % 256 = i.opcode.toNat := by rw [encode_toNat]; omega
  have heaField : (encode i).toNat / 256 % 16 = i.ea.toNat := by rw [encode_toNat]; omega
  have hebField : (encode i).toNat / 4096 % 16 = i.eb.toNat := by rw [encode_toNat]; omega
  rw [hopField, heaField, hebField]
  cases i with
  | seed e | next e | inject e => simp [Instr.wellFormed, Instr.engines, Instr.opcode, Instr.ea]
  | recover d s => simp [Instr.wellFormed, Instr.engines, Instr.opcode, Instr.ea, Instr.eb, imp_iff_not_or]
  | bufClear | pushRaw | pushOut | temper | untemper => simp [Instr.wellFormed, Instr.engines, Instr.opcode]

theorem wellFormed_sixteen (i : Instr) : i.wellFormed 16 = true :=
  List.all_eq_true.mpr fun e _ => decide_eq_true e.isLt

/-- Settles O6: a word that is not illegal is the word of a command, which is refused when it is not well-formed. -/
theorem badEngineCommandWords : Obligations.BadEngineCommandWords := by
  refine ⟨fun n cmd => ?_, fun cmd h => ?_, fun n cmd c => decode_error_cases⟩
  · obtain hillegal | ⟨i, rfl⟩ := decode_illegal_or_encoding n cmd
    · simp [hillegal]
    · rw [← not_wellFormed_iff_toNat, decode_encode]
      by_cases hwf : i.wellFormed n = true <;> simp [hwf]
  · obtain hillegal | ⟨i, rfl⟩ := decode_illegal_or_encoding 16 cmd
    · simp [hillegal] at h
    · simp [decode_encode, wellFormed_sixteen] at h

namespace Machine

/-! The fault of each command (R153 to R155) -/

theorem faulting_of_running {s : State} (h : s.halted = false) (c : Cause) (i : Instr) :
    faulting c i s = .next { s with halted := true, cause := c, faultCmd := encode i } :=
  congrArg _ (State.raiseFault_of_running h c (encode i))

theorem exists_missing_engine {i : Instr} {s : State} (h : i.wellFormed s.numEngines = false) :
    ∃ e ∈ i.engines, s.engine? e = none := by
  obtain ⟨e, he, hlarge⟩ := List.all_eq_false.mp h
  exact ⟨e, he, State.engine?_eq_none.mpr (by simpa using hlarge)⟩

theorem exec_of_not_wellFormed {i : Instr} {s : State} (h : i.wellFormed s.numEngines = false) :
    exec i s = faulting .badEngine i s := by
  obtain ⟨k, hk, hnone⟩ := exists_missing_engine h
  cases i with
  | seed e => cases List.mem_singleton.mp hk; exact execSeed_of_none hnone
  | next e => cases List.mem_singleton.mp hk; exact execNext_of_none hnone
  | inject e => cases List.mem_singleton.mp hk; exact execInject_of_none hnone
  | recover d src =>
    obtain rfl | hk := List.mem_cons.mp hk
    · exact execRecover_of_none (.inl hnone)
    · cases List.mem_singleton.mp hk
      exact execRecover_of_none (.inr hnone)
  | bufClear | pushRaw | pushOut | temper | untemper => cases hk

/-- Settles O37: `exec_of_not_wellFormed`. -/
theorem illFormedCommandsFault : Obligations.IllFormedCommandsFault := fun i _ hwf hh =>
  (exec_of_not_wellFormed hwf).trans (faulting_of_running hh .badEngine i)

/-- Settles O33: INJECT of a short buffer, and a push into a full one. -/
theorem lengthMismatchFaults : Obligations.LengthMismatchFaults := by
  refine ⟨fun s e hh he hb => ?_, fun s hh hb => ?_⟩
  · obtain ⟨g, hg⟩ := State.engine?_of_lt he
    exact (execInject_of_short hg (mt count_eq_full.mp hb)).trans (faulting_of_running hh _ _)
  · have hfull := count_eq_full.mpr hb
    exact ⟨(execPushRaw_of_full hfull).trans (faulting_of_running hh _ .pushRaw),
      (execPushOut_of_full hfull).trans (faulting_of_running hh _ .pushOut)⟩

/-- A command leaves an engine's life, or it makes the engine ADVANCING as SEED, INJECT or RECOVER into it (R154). -/
theorem exec_engine_life {i : Instr} {s t : State} {k : BitVec 4} {g g' : Engine} (ht : exec i s = .next t)
    (hg : s.engine? k = some g) (hg' : t.engine? k = some g') :
    g'.life = g.life ∨ (g'.life = .advancing ∧ (i = .seed k ∨ i = .inject k ∨ ∃ src, i = .recover k src)) := by
  have kept (h : s.engine? k = some g') : g'.life = g.life := by rw [Option.some.inj (h.symm.trans hg)]
  rcases exec_cases i s with ⟨c, -, h⟩ | ⟨e, g₀, rfl, -, h⟩ | ⟨e, g₀, rfl, he, -, h⟩ | ⟨-, h⟩ | ⟨-, -, h⟩ |
      ⟨-, -, h⟩ | ⟨e, g₀, rfl, -, -, h⟩ | ⟨d, src, g₀, g₁, rfl, -, hsrc, -, h⟩ | ⟨-, h⟩ | ⟨-, h⟩ <;>
    cases h.symm.trans ht
  · rw [State.engine?_congr (State.raiseFault_engines s c _)] at hg'
    exact .inl (kept hg')
  · obtain ⟨rfl, rfl⟩ | h := State.engine?_setEngine_eq_some hg'
    · exact .inr ⟨rfl, .inl rfl⟩
    · exact .inl (kept h)
  · obtain ⟨rfl, rfl⟩ | h := State.engine?_setEngine_eq_some (s := s) hg'
    · cases hg.symm.trans he
      exact .inl (Engine.draw_life s.config g)
    · exact .inl (kept h)
  · exact .inl (kept hg')
  · exact .inl (kept hg')
  · exact .inl (kept hg')
  · obtain ⟨rfl, rfl⟩ | h := State.engine?_setEngine_eq_some (s := s) hg'
    · exact .inr ⟨rfl, .inr (.inl rfl)⟩
    · exact .inl (kept h)
  · have hlife := captureLoop_life s.config g₀ s.buf 624
    generalize captureLoop s.config g₀ s.buf 624 = r at hg' hlife
    obtain ⟨rfl, rfl⟩ | h := State.engine?_setEngine_eq_some hg'
    · exact .inr ⟨rfl, .inr (.inr ⟨src, rfl⟩)⟩
    obtain ⟨rfl, rfl⟩ | h := State.engine?_setEngine_eq_some (s := s) h
    · cases hg.symm.trans hsrc
      exact .inl hlife
    · exact .inl (kept h)
  · exact .inl (kept hg')
  · exact .inl (kept hg')

/-- Settles O32: the two faults, and `exec_engine_life` for the ways out of UNINIT and none back. -/
theorem uninitEnginesFault : Obligations.UninitEnginesFault := by
  refine ⟨fun s e g hh hg hl => ?_, fun s d src g hh hd hg hl => ?_, fun e g hg => ?_,
    fun i s t k g g' ht hg hg' => ?_⟩
  · exact (execNext_of_uninit hg hl).trans (faulting_of_running hh _ _)
  · obtain ⟨h, hdst⟩ := State.engine?_of_lt hd
    exact (execRecover_of_uninit hdst hg hl).trans (faulting_of_running hh _ _)
  · rw [State.engine?_reset_eq_some hg]
    rfl
  · obtain hkept | ⟨hadvancing, hway⟩ := exec_engine_life ht hg hg'
    · exact ⟨fun hl hl' => (nomatch hl.symm.trans (hkept.symm.trans hl')), hkept.trans⟩
    · exact ⟨fun _ _ => hway, fun _ => hadvancing⟩

/-! What a fault writes (R150, R158) -/

/-- A command leaves HALTED, or enters a fault of its own with its own word. -/
theorem exec_raises_or_keeps_halted {i : Instr} {s t : State} (ht : exec i s = .next t) :
    t.halted = s.halted ∨
    ∃ c, (c = .badEngine ∨ c = .uninit ∨ c = .lenMismatch) ∧ t = s.raiseFault c (encode i) := by
  rcases exec_cases i s with ⟨c, hc, h⟩ | ⟨e, g, -, -, h⟩ | ⟨e, g, -, -, -, h⟩ | ⟨-, h⟩ | ⟨-, -, h⟩ | ⟨-, -, h⟩ |
      ⟨e, g, -, -, -, h⟩ | ⟨d, src, g, g', -, -, -, -, h⟩ | ⟨-, h⟩ | ⟨-, h⟩ <;> cases h.symm.trans ht
  · exact .inr ⟨c, hc, rfl⟩
  all_goals exact .inl rfl

/-- A latched command that halts a running block does so by fault entry with one of four causes and its own word. -/
theorem runCommand_raises {x : Executing} {s t : State} (hrun : runCommand x s = .next t) (hs : s.halted = false)
    (ht : t.halted = true) :
    ∃ c, (c = .illegalCmd ∨ c = .badEngine ∨ c = .uninit ∨ c = .lenMismatch) ∧ t = s.raiseFault c x.cmd := by
  rcases runCommand_cases x s with ⟨hh, -⟩ | ⟨c, -, hd, hr⟩ | ⟨i, -, hd, hr⟩
  · exact State.not_newly_halted rfl hs hh
  · cases hr.symm.trans hrun
    exact ⟨c, (decode_error_cases hd).imp_right .inl, rfl⟩
  · obtain ⟨hword, -⟩ := decode_eq_ok_iff.mp hd
    obtain hkept | ⟨c, hc, h⟩ := exec_raises_or_keeps_halted (hr.symm.trans hrun)
    · exact State.not_newly_halted hkept hs ht
    · exact ⟨c, .inr hc, hword ▸ h⟩

/-- A refused CMD write halts a block that its command left running (R156). -/
theorem State.retire_of_overrun {s : State} {x : Executing} {w : Word} (hs : s.halted = false)
    (hw : x.refused = some w) :
    s.retire x = { s with executing := none, halted := true, cause := .overrun, faultCmd := w } :=
  (State.retire_of_some s hw).trans (State.raiseFault_of_running (s := { s with executing := none }) hs .overrun w)

/-- Settles O31: fault entry in a running block, by the command and by the refused write recorded after it. -/
theorem faultsWriteOnlyTheRecord : Obligations.FaultsWriteOnlyTheRecord := by
  refine ⟨fun s t x hrun hs ht => ?_, fun s x w hs hw => ?_⟩
  · obtain ⟨c, hc, rfl⟩ := runCommand_raises hrun hs ht
    rw [State.raiseFault_of_running hs]
    exact ⟨rfl, hc⟩
  · exact State.retire_of_overrun hs hw

/-- The word of an operation that names no engine and never faults by itself can raise ILLEGAL_CMD alone. -/
theorem cause_of_halting_transform {x : Executing} {s t : State} {i : Instr} (hi : i = .temper ∨ i = .untemper)
    (hop : x.cmd.toNat % 256 = i.opcode.toNat) (hs : s.halted = false) (hrun : runCommand x s = .next t)
    (ht : t.halted = true) : t.cause = .illegalCmd := by
  have hengines : i.engines = [] := by obtain rfl | rfl := hi <;> rfl
  have hdecode := decode_of_no_engines (n := s.numEngines) hengines hop
  split at hdecode
  · have hexec := (runCommand_of_ok hs hdecode).symm.trans hrun
    have hkept : t.halted = s.halted := by
      obtain rfl | rfl := hi
      all_goals
        obtain rfl := State.after_of_next hexec
        rfl
    exact State.not_newly_halted hkept hs ht
  · cases (runCommand_of_error hs hdecode).symm.trans hrun
    rw [State.raiseFault_of_running hs]

/-- Settles O36: `cause_of_halting_transform` for both operation codes. -/
theorem transformsRaiseOnlyIllegalCommand : Obligations.TransformsRaiseOnlyIllegalCommand := by
  intro s t x hop hs hrun ht
  obtain hop | hop : x.cmd.toNat % 256 = 0x08 ∨ x.cmd.toNat % 256 = 0x09 := by simpa using hop
  · exact cause_of_halting_transform (.inl rfl) hop hs hrun ht
  · exact cause_of_halting_transform (.inr rfl) hop hs hrun ht

/-! A CMD write refused while BUSY = 1 (R156) -/

/-- Settles O34: the first refused word is remembered, and `State.retire` records it in a block that still runs. -/
theorem overrunIsRecordedAfterTheCommand : Obligations.OverrunIsRecordedAfterTheCommand := by
  refine ⟨fun s x w hx hh hr hnone => ?_, fun s t x w hx hc hw hrun => ?_⟩
  · obtain ⟨-, hbusy, -⟩ := windowWrites s w
    rw [hbusy x hx hh hr, hnone, Option.getD_none]
  · rw [step_of_completes hx hc, complete_of_next hrun]
    split
    case isTrue hh => rw [State.retire_of_halted hh]
    case isFalse hh => rw [State.retire_of_overrun (Bool.eq_false_iff.mpr hh) hw]

/-! The halted block (R159, R161) -/

/-- No event of the host but reset writes the fault record. -/
theorem hostEvent_keeps_record {ev : HostEvent} {s t : State} (hev : ev ≠ .assertReset)
    (h : hostEvent ev s = .next t) : t.halted = s.halted ∧ t.cause = s.cause ∧ t.faultCmd = s.faultCmd := by
  rcases hostEvent_cases h with ⟨r, rfl⟩ | ⟨r, w, rfl⟩ | ⟨-, rfl⟩ | ⟨hreset, -⟩ | ⟨-, rfl⟩
  · exact ⟨rfl, rfl, rfl⟩
  · rcases hostWrite_cases s r w with h | h | ⟨-, -, x, -, h⟩ | ⟨-, -, -, h⟩ <;> rw [h] <;> exact ⟨rfl, rfl, rfl⟩
  · exact ⟨rfl, rfl, rfl⟩
  · exact absurd hreset hev
  · exact ⟨rfl, rfl, rfl⟩

theorem step_keeps_record_of_halted {s t : State} (hh : s.halted = true) (h : step s = .next t)
    (hhost : s.host.head? ≠ some .assertReset) :
    t.halted = s.halted ∧ t.cause = s.cause ∧ t.faultCmd = s.faultCmd := by
  have not_reset {ev : HostEvent} {rest : List HostEvent} (hev : s.host = ev :: rest) : ev ≠ .assertReset := by
    simpa [hev] using hhost
  rcases step_cases h with ⟨-, -, rfl⟩ | ⟨x, u, -, -, hrun, rfl⟩ | ⟨ev, rest, -, hev, hnext⟩ |
      ⟨x, ev, rest, -, -, hev, hnext⟩
  · exact ⟨rfl, rfl, rfl⟩
  · cases (runCommand_of_halted x hh).symm.trans hrun
    rw [State.retire_of_halted hh]
    exact ⟨rfl, rfl, rfl⟩
  · exact hostEvent_keeps_record (s := { s with host := rest }) (not_reset hev) hnext
  · exact hostEvent_keeps_record (s := { s.passAccess x with host := rest }) (not_reset hev) hnext

/-- Settles O35: the window's reads and writes, a command that runs as the identity, and the record kept by each step. -/
theorem haltedUntilReset : Obligations.HaltedUntilReset := by
  refine ⟨fun s w hh => ?_, fun s w _ => ?_, fun s off _ hoff halign => ?_, fun s x hh hx hc => ?_,
    fun s t hh h hhost => ?_⟩
  · obtain ⟨-, -, hignored, -⟩ := windowWrites s w
    exact hignored (.inl hh)
  · obtain ⟨-, -, -, hdata, -⟩ := windowWrites s w
    exact hdata
  · exact ⟨_, _, hostEvent_read_register s hoff halign⟩
  · rw [step_of_completes hx hc, complete_of_next (runCommand_of_halted x hh), State.retire_of_halted hh]
  · obtain ⟨hhalted, hrecord⟩ := step_keeps_record_of_halted hh h hhost
    exact ⟨hhalted.trans hh, hrecord⟩

end Machine
end Sys2Proof
end

section
/-! PROOFS. Reset (O49), what no step changes (O50), the end of every accepted command (O47), and the first output after
INJECT (O20). -/

namespace Sys2Proof.Machine

/-! Reset (R180, R181) -/

/-- Settles O49: `State.resetBlock` register by register; under reset a CMD write is ignored. -/
theorem resetAbortsAndReinitialises : Obligations.ResetAbortsAndReinitialises := by
  intro s
  have hnum : s.resetBlock.numEngines = s.numEngines := by simp [State.numEngines]
  have hlife (e : BitVec 4) (g : Engine) (h : s.resetBlock.engine? e = some g) : g.life = .uninit := by
    simp only [State.engine?, State.resetBlock_engines, List.getElem?_map, Option.map_eq_some_iff] at h
    obtain ⟨i, -, rfl⟩ := h
    rfl
  have hstatus : s.resetBlock.statusWord = 0 := show State.reset.statusWord = 0 by decide
  have hcmd (w : Word) : hostEvent (.write 32 s.resetBlock.config.base w) s.resetBlock = .next s.resetBlock := by
    obtain ⟨-, -, hignored, -⟩ := windowWrites s.resetBlock w
    exact hignored (.inr rfl)
  exact ⟨s.resetBlock, rfl, hnum, rfl, hlife, rfl, rfl, rfl, rfl, rfl, rfl, rfl, hstatus, hcmd, rfl⟩

/-! What no event of the host, no command and no step changes (R181) -/

/-- An event of the host writes neither the configuration, nor the number of engines, nor the events to come. -/
theorem hostEvent_frame {ev : HostEvent} {s t : State} (h : hostEvent ev s = .next t) :
    t.config = s.config ∧ t.numEngines = s.numEngines ∧ t.host = s.host := by
  rcases hostEvent_cases h with ⟨r, rfl⟩ | ⟨r, w, rfl⟩ | ⟨-, rfl⟩ | ⟨-, rfl⟩ | ⟨-, rfl⟩
  · exact ⟨rfl, rfl, rfl⟩
  · rcases hostWrite_cases s r w with h | h | ⟨-, -, x, -, h⟩ | ⟨-, -, -, h⟩ <;> rw [h] <;> exact ⟨rfl, rfl, rfl⟩
  · exact ⟨rfl, rfl, rfl⟩
  · exact ⟨rfl, by simp [State.numEngines], rfl⟩
  · exact ⟨rfl, rfl, rfl⟩

/-- The latched command answers a next state, with the configuration and the number of engines as they were. -/
theorem runCommand_keeps_config (x : Executing) (s : State) :
    ∃ t, runCommand x s = .next t ∧ t.config = s.config ∧ t.numEngines = s.numEngines := by
  rcases runCommand_cases x s with ⟨-, hr⟩ | ⟨c, -, -, hr⟩ | ⟨i, -, -, hr⟩
  · exact ⟨s, hr, rfl, rfl⟩
  · exact ⟨_, hr, s.raiseFault_config c x.cmd, State.numEngines_congr (s.raiseFault_engines c x.cmd)⟩
  · obtain ⟨t, ht⟩ := everyCommandAnswersANextState i s
    obtain ⟨hconfig, -⟩ := frameOfEveryCommand i s t ht
    exact ⟨t, hr.trans ht, hconfig, exec_numEngines ht⟩

/-- Settles O50: a step is no change, a completed command, or an event of the host, and each keeps both. -/
theorem configurationNeverChanges : Obligations.ConfigurationNeverChanges := by
  intro s t h
  rcases step_cases h with ⟨-, -, rfl⟩ | ⟨x, u, -, -, hrun, rfl⟩ | ⟨ev, rest, -, -, hev⟩ |
      ⟨x, ev, rest, -, -, -, hev⟩
  · exact ⟨rfl, rfl⟩
  · obtain ⟨v, hv, hconfig, hnum⟩ := runCommand_keeps_config x s
    cases hrun.symm.trans hv
    exact ⟨(u.retire_config x).trans hconfig, (State.numEngines_congr (u.retire_engines x)).trans hnum⟩
  · obtain ⟨hconfig, hnum, -⟩ := hostEvent_frame hev
    exact ⟨hconfig, hnum⟩
  · obtain ⟨hconfig, hnum, -⟩ := hostEvent_frame hev
    exact ⟨hconfig, hnum⟩

/-! The end of an accepted command (R191) -/

/-- The event is no access of the host, or one that R42 admits. -/
def HostEvent.Admitted (base : Nat) (ev : HostEvent) : Prop :=
  ∀ width addr w, ev = .read width addr ∨ ev = .write width addr w → (admitted base width addr).isSome = true

theorem hostEvent_of_admitted {ev : HostEvent} {s : State} (h : ev.Admitted s.config.base) :
    ∃ t, hostEvent ev s = .next t := by
  cases ev with
  | read width addr =>
    obtain ⟨r, hr⟩ := Option.isSome_iff_exists.mp (h width addr 0 (.inl rfl))
    exact ⟨s.hostRead r, by simp only [hostEvent, hr]⟩
  | write width addr value =>
    obtain ⟨r, hr⟩ := Option.isSome_iff_exists.mp (h width addr value (.inr rfl))
    exact ⟨s.hostWrite r value, by simp only [hostEvent, hr]⟩
  | awaitIdle => exact ⟨_, rfl⟩
  | assertReset => exact ⟨_, rfl⟩
  | releaseReset => exact ⟨_, rfl⟩

/-- No event of the host makes the executing command wait longer; reset aborts it (R156, R180). -/
theorem hostEvent_keeps_wait {ev : HostEvent} {s t : State} {x : Executing} (h : hostEvent ev s = .next t)
    (hx : s.executing = some x) : t.executing = none ∨ ∃ y, t.executing = some y ∧ y.wait = x.wait := by
  rcases hostEvent_cases h with ⟨r, rfl⟩ | ⟨r, w, rfl⟩ | ⟨-, rfl⟩ | ⟨-, rfl⟩ | ⟨-, rfl⟩
  · exact .inr ⟨x, hx, rfl⟩
  · rcases hostWrite_cases s r w with hw | hw | ⟨-, -, y, hy, hw⟩ | ⟨-, -, hidle, -⟩
    · rw [hw]
      exact .inr ⟨x, hx, rfl⟩
    · rw [hw]
      exact .inr ⟨x, hx, rfl⟩
    · rw [hw]
      cases hy.symm.trans hx
      exact .inr ⟨_, rfl, rfl⟩
    · cases hidle.symm.trans hx
  · exact .inr ⟨x, hx, rfl⟩
  · exact .inl rfl
  · exact .inr ⟨x, hx, rfl⟩

/-- One step ends the executing command, or makes its wait one shorter and leaves only admitted accesses to come. -/
theorem step_ends_or_shortens_wait {s : State} {x : Executing} (hx : s.executing = some x)
    (hhost : ∀ ev ∈ s.host, ev.Admitted s.config.base) :
    ∃ t, step s = .next t ∧ (t.executing = none ∨
      ∃ y, t.executing = some y ∧ y.wait + 1 = x.wait ∧ ∀ ev ∈ t.host, ev.Admitted t.config.base) := by
  cases hc : completesNow x s.host with
  | true =>
    obtain ⟨u, hu, -⟩ := runCommand_keeps_config x s
    exact ⟨_, (step_of_completes hx hc).trans (complete_of_next hu), .inl (u.retire_executing x)⟩
  | false =>
    have hgoeson := (Bool.eq_false_iff.trans (not_congr completesNow_iff)).mp hc
    cases hev : s.host with
    | nil => exact absurd (.inr (.inl hev)) hgoeson
    | cons ev rest =>
      rw [hev, List.forall_mem_cons] at hhost
      obtain ⟨hadm, hrest⟩ := hhost
      obtain ⟨t, ht⟩ := hostEvent_of_admitted (s := { s.passAccess x with host := rest }) hadm
      obtain ⟨hconfig, -, hthost⟩ := hostEvent_frame ht
      refine ⟨t, ?_, (hostEvent_keeps_wait ht rfl).imp_right ?_⟩
      · rw [step_of_waits hx hc, hostTurn_of_cons (s := s.passAccess x) hev, ht]
      · rintro ⟨y, hy, hwait⟩
        have hpos : x.wait ≠ 0 := fun h => hgoeson (.inl h)
        refine ⟨y, hy, ?_, ?_⟩
        · rw [hwait]
          exact Nat.succ_pred hpos
        · rw [hconfig, hthost]
          exact hrest

/-- The executing command ends within its wait and one step more, by induction on the wait. -/
theorem run_to_idle {s : State} {x : Executing} (hx : s.executing = some x)
    (hhost : ∀ ev ∈ s.host, ev.Admitted s.config.base) :
    ∃ k t, k ≤ x.wait + 1 ∧ Host.Core.run Sys2Proof.core k s = .next t ∧ t.executing = none := by
  obtain ⟨t, ht, hidle | ⟨y, hy, hwait, hthost⟩⟩ := step_ends_or_shortens_wait hx hhost
  · exact ⟨1, t, by omega, run_succ ht, hidle⟩
  · obtain ⟨k, u, hk, hrun, hidle⟩ := run_to_idle hy hthost
    exact ⟨k + 1, u, by omega, (run_succ ht).trans hrun, hidle⟩
termination_by x.wait

/-- Settles O47: `run_to_idle`. -/
theorem acceptedCommandsFinish : Obligations.AcceptedCommandsFinish := fun _ _ => run_to_idle

/-! The first output after INJECT (R189) -/

/-- Settles O20: INJECT leaves the cursor at 624, where a draw twists first. -/
theorem firstOutputAfterInjectTwists : Obligations.FirstOutputAfterInjectTwists := by
  intro s e he hb
  obtain ⟨g, hg⟩ := State.engine?_of_lt he
  have hinjected := State.engine?_setEngine_self (g := Engine.injected s.buf) hg
  rw [State.after_inject hg (count_eq_full.mpr hb), State.output, State.afterNexts, State.afterNexts,
    State.after_next (s := (s.setEngine e _).clearBuffer) hinjected rfl, Engine.draw_of_full rfl]
  rfl

end Sys2Proof.Machine
end
